-- ==== Sys2Proof/Word.lean ====
section
/-! DEFINITION. The bit-vector types the spec's values have. -/

namespace Sys2Proof

/-- An 8-bit value `u8` (00_scope.md R11). -/
abbrev Byte := BitVec 8

/-- A 32-bit operation word or register value (30_encoding.md R80, 10_state.md R40). -/
abbrev Word := BitVec 32

/-- A 4-bit value `u4`, half of a byte (00_scope.md R15). -/
abbrev Nibble := BitVec 4

end Sys2Proof
end

