-- ==== Sys2Proof/Config.lean ====
section
/-! DEFINITION. The implementation parameters of 00_scope.md R8 and the free values. -/

namespace Sys2Proof

/-- `P_WIRE_MAP`: the bit position in the expander byte of each of the eight signals (R8). Distinctness is a
check, `WireMap.wf`: an ill-formed map is refused (R9). -/
structure WireMap where
  rs : Fin 8
  rw : Fin 8
  en : Fin 8
  bl : Fin 8
  d4 : Fin 8
  d5 : Fin 8
  d6 : Fin 8
  d7 : Fin 8
deriving DecidableEq, Repr

/-- The configuration of R8, fixed for the whole life of an engine. Times are in microseconds, the
measurement timeout and the threshold in polls. -/
structure Config where
  /-- `P_I2C_ADDR` -/
  i2cAddr : BitVec 7
  /-- `P_WIRE_MAP` -/
  wireMap : WireMap
  /-- `P_NUM_ROWS` -/
  numRows : Nat
  /-- `P_MAX_COLUMNS`, informational: no rule clips to it -/
  maxColumns : Nat
  /-- `P_BACKLIGHT_INIT` -/
  backlightInit : Bool
  /-- `P_SENSOR_PIN`, opaque to the engine: no rule reads it -/
  sensorPin : Nat
  /-- `T_EN_HOLD` -/
  tEnHold : Nat
  /-- `T_SETTLE` -/
  tSettle : Nat
  /-- `T_POWERUP` -/
  tPowerup : Nat
  /-- `T_INIT_GAP1` -/
  tInitGap1 : Nat
  /-- `T_INIT_GAP2` -/
  tInitGap2 : Nat
  /-- `T_CLEAR` -/
  tClear : Nat
  /-- `T_RESET_LOW` -/
  tResetLow : Nat
  /-- `T_ACK_WAIT` -/
  tAckWait : Nat
  /-- `T_POLL` -/
  tPoll : Nat
  /-- `T_MEAS_TIMEOUT` -/
  tMeasTimeout : Nat
  /-- `T_BIT_THRESHOLD` -/
  tBitThreshold : Nat
  /-- `N_MEAS` -/
  nMeas : Nat
  /-- `N_PREAMBLE` -/
  nPreamble : Nat
  /-- `N_BITS` -/
  nBits : Nat
  /-- `P_SENTINEL_HUM` -/
  sentinelHum : Byte
  /-- `P_SENTINEL_TEMP` -/
  sentinelTemp : Byte
  /-- `P_REG_BASE` -/
  regBase : Nat
deriving DecidableEq, Repr

/-- Free value: the answer of a `BusWrite` no listed answer covers, `true` for `Ok` (00_scope.md R12, O1).
DESIGN CHOICE, safe: log entry 6. -/
opaque Config.freeBusOk : Nat → Bool

/-- Free value: the level of a `GpioSample` no listed level covers, `true` for `High` (R12, O2).
DESIGN CHOICE, safe: log entry 7. -/
opaque Config.freePinHigh : Nat → Bool

/-- Free value: by how much the actual length of a `Delay` exceeds its bound (R13, O3). DESIGN CHOICE, safe: log
entry 8. -/
opaque Config.freeExtraDelay : Nat → Nat

/-- Free value: the OPEN parameter `P_SENSOR_PIN`, which no rule reads (R8). DESIGN CHOICE, safe: log entry 4. -/
opaque Config.openSensorPin : Nat

/-- The default `P_WIRE_MAP`, the source's byte layout (R8, 20_memory.md R66). -/
def WireMap.standard : WireMap :=
  { rs := 0, rw := 1, en := 2, bl := 3, d4 := 4, d5 := 5, d6 := 6, d7 := 7 }

/-- The default configuration of R8. `P_REG_BASE` is OPEN there; 0 stands in (DESIGN CHOICE, unsafe: log entry 3). -/
def Config.defaults : Config where
  i2cAddr := 0x27
  wireMap := WireMap.standard
  numRows := 4
  maxColumns := 20
  backlightInit := true
  sensorPin := Config.openSensorPin
  tEnHold := 1
  tSettle := 50
  tPowerup := 40000
  tInitGap1 := 4100
  tInitGap2 := 100
  tClear := 2000
  tResetLow := 18000
  tAckWait := 40
  tPoll := 1
  tMeasTimeout := 255
  tBitThreshold := 50
  nMeas := 85
  nPreamble := 4
  nBits := 40
  sentinelHum := 0xFF
  sentinelTemp := 0xFF
  regBase := 0

end Sys2Proof
end

