-- ==== Sys2Proof/Syntax.lean ====
section
/-! DEFINITION. The operations of spec/opcode_table.json and the assembly lines of 30_encoding.md R92, R93. -/

namespace Sys2Proof

/-- The six operations (30_encoding.md R83). Operands are unsigned bytes taken as they stand (R82), so every term
is a legal operation. -/
inductive Instr where
  /-- `INIT` -/
  | init
  /-- `COMMAND v`: the byte to send -/
  | command (v : Byte)
  /-- `DATA v`: the character code -/
  | data (v : Byte)
  /-- `CLEAR` -/
  | clear
  /-- `SET_CURSOR r, c`: the requested row and the column -/
  | setCursor (row col : Byte)
  /-- `SENSOR_READ` -/
  | sensorRead
deriving DecidableEq, Repr

/-- One line of the spec's assembly (R92), and the pseudo-operation WRITE_TEXT (R93). A number is as written in
the source text, before the assembler has checked its range. -/
inductive AsmLine where
  | init
  | command (imm8 : Nat)
  | data (imm8 : Nat)
  /-- `DATA 'c'` -/
  | dataChar (c : Char)
  | clear
  | setCursor (row8 col8 : Nat)
  | sensorRead
  /-- `WRITE_TEXT "s"` -/
  | writeText (text : List Char)
deriving DecidableEq, Repr

end Sys2Proof
end

