-- ==== Sys2Proof/WellFormed.lean ====
section
/-! DEFINITION. Which configurations and assembly lines are legal. An operation (Instr) needs no check of its own: its
operands are bytes by their type (30_encoding.md R82) and the fields the opcode map wants zero are no operands. -/

namespace Sys2Proof

/-- The eight positions of a wire map in the order of R8. -/
def WireMap.positions (m : WireMap) : List (Fin 8) :=
  [m.rs, m.rw, m.en, m.bl, m.d4, m.d5, m.d6, m.d7]

/-- The eight signals occupy eight distinct bit positions (00_scope.md R9). -/
def WireMap.wf (m : WireMap) : Bool := decide m.positions.Nodup

/-- Every parameter has a legal value of 00_scope.md R8. The refusal of a value outside the column 'legal values'
other than the wire map's is DEDUCED, safe (log entry 2). -/
def Config.wf (c : Config) : Bool :=
  c.nMeas == 85 && (c.nPreamble == 4 && (c.nBits == 40
    && (decide (1 ≤ c.numRows ∧ c.numRows ≤ 4)
    && (decide (1 ≤ c.maxColumns ∧ c.maxColumns ≤ 80)
    && (decide (1 ≤ c.tMeasTimeout ∧ c.tMeasTimeout ≤ 65535)
    && c.wireMap.wf)))))

/-- An assembler refuses a number outside `0..255` (30_encoding.md R92); a character literal is encoded by its ASCII
code (R92, general knowledge; PRESUMED, log entry 22). The spec says nothing of a character that has none, of code 128
or above, in a literal or in a text: the model refuses the whole line (DESIGN CHOICE, safe: log entry 24). -/
def AsmLine.wf : AsmLine → Bool
  | .init => true
  | .command v => decide (v < 256)
  | .data v => decide (v < 256)
  | .dataChar c => decide (c.toNat < 128)
  | .clear => true
  | .setCursor r c => decide (r < 256) && decide (c < 256)
  | .sensorRead => true
  | .writeText cs => cs.all fun c => decide (c.toNat < 128)

end Sys2Proof
end

