-- ==== Sys2Proof/Decode.lean ====
section
/-! DEFINITION. The decoder of 30_encoding.md R84, the encoder, and the assembler of R92 and R93. -/

namespace Sys2Proof

/-- `OPC`, bits 7:0 of an operation word (R80). -/
def opcOf (w : Word) : Byte := w.extractLsb' 0 8

/-- `A`, bits 15:8. -/
def fieldA (w : Word) : Byte := w.extractLsb' 8 8

/-- `B`, bits 23:16. -/
def fieldB (w : Word) : Byte := w.extractLsb' 16 8

/-- `Z`, bits 31:24. -/
def fieldZ (w : Word) : Byte := w.extractLsb' 24 8

/-- A field's value placed in a 32-bit word with its lowest bit at bit `lo`. -/
def placeAt (lo : Nat) {n : Nat} (v : BitVec n) : Word := v.setWidth 32 <<< lo

/-- An operation word from its four fields (R80). -/
def packOp32 (opc a b z : Byte) : Word := placeAt 0 opc ||| placeAt 8 a ||| placeAt 16 b ||| placeAt 24 z

/-- A row of the opcode map: the match and mask pair of R83 and the operation it spells. -/
structure OpRow where
  pattern : Word
  mask : Word
  build : Byte → Byte → Instr

/-- The opcode map of R83, as match and mask pairs. -/
def opRows : List OpRow :=
  [ { pattern := 0x00000001, mask := 0xFFFFFFFF, build := fun _ _ => .init },
    { pattern := 0x00000002, mask := 0xFFFF00FF, build := fun a _ => .command a },
    { pattern := 0x00000003, mask := 0xFFFF00FF, build := fun a _ => .data a },
    { pattern := 0x00000004, mask := 0xFFFFFFFF, build := fun _ _ => .clear },
    { pattern := 0x00000005, mask := 0xFF0000FF, build := fun a b => .setCursor a b },
    { pattern := 0x00000010, mask := 0xFFFFFFFF, build := fun _ _ => .sensorRead } ]

/-- Why a word is illegal (R90). -/
inductive IllegalWord where
  /-- the opcode is 0x00, 0x06 to 0x0F or 0x11 to 0xFF -/
  | reservedOpcode (opc : Byte)
  /-- the opcode is legal, but a field its row wants zero is not -/
  | nonzeroField (opc : Byte)
deriving DecidableEq, Repr

/-- Whether a word lies in a row of the opcode map: `(w AND k) == m` (R84). -/
def OpRow.covers (r : OpRow) (w : Word) : Bool := w &&& r.mask == r.pattern

/-- The opcodes of the map. -/
def legalOpcodes : List Byte := [0x01, 0x02, 0x03, 0x04, 0x05, 0x10]

/-- Decoding (R84): the first row that covers the word gives the operation, with `A = w[15:8]` and `B = w[23:16]`; a
word no row covers is illegal, for one of the two reasons of R90. -/
def decode (w : Word) : Except IllegalWord Instr :=
  match opRows.find? (fun r => r.covers w) with
  | some r => .ok (r.build (fieldA w) (fieldB w))
  | none =>
    if opcOf w ∈ legalOpcodes then .error (.nonzeroField (opcOf w)) else .error (.reservedOpcode (opcOf w))

/-- The operation word of each operation (R92). -/
def encode : Instr → Word
  | .init => packOp32 0x01 0 0 0
  | .command v => packOp32 0x02 v 0 0
  | .data v => packOp32 0x03 v 0 0
  | .clear => packOp32 0x04 0 0 0
  | .setCursor r c => packOp32 0x05 r c 0
  | .sensorRead => packOp32 0x10 0 0 0

/-- The four bytes of a 32-bit value in the window's byte order: byte `j` holds bits `8j+7 : 8j`
(20_memory.md R61). -/
def bytesOfWord (w : Word) : List Byte := [fieldZ w, fieldB w, fieldA w, opcOf w].reverse

/-- The 32-bit value of four bytes in the window's byte order (R61); a list of any other length is no operation
word (R81). -/
def wordOfBytes : List Byte → Option Word
  | [b0, b1, b2, b3] => some (packOp32 b0 b1 b2 b3)
  | _ => none

/-- Decoding of an operation laid out as bytes, total on any list of bytes. -/
def decodeBytes (bs : List Byte) : Option Instr :=
  match wordOfBytes bs with
  | some w => (decode w).toOption
  | none => none

/-- The word of `nbits` low bits, every higher bit zero. -/
def tableWord (nbits w : Nat) : Word := BitVec.ofNat 32 (w % 2 ^ nbits)

/-- The operation the decoder reads from an opcode-table word: laid out in the window's byte order and given to the
decoder. -/
def decodeTableWord (nbits w : Nat) : Option Instr :=
  if nbits ≤ 32 then decodeBytes (bytesOfWord (tableWord nbits w)) else none

/-- The character code of a literal (R92). -/
def charCode (c : Char) : Byte := BitVec.ofNat 8 c.toNat

/-- The operations an assembly line stands for; WRITE_TEXT stands for one DATA per character (R93). An ill-formed
line is refused: a number outside `0..255` by R92, a character of code 128 or above by the model's choice (log entry
24). -/
def assembleOps (l : AsmLine) : Option (List Instr) :=
  if l.wf then
    match l with
    | .init => some [.init]
    | .command v => some [.command (BitVec.ofNat 8 v)]
    | .data v => some [.data (BitVec.ofNat 8 v)]
    | .dataChar c => some [.data (charCode c)]
    | .clear => some [.clear]
    | .setCursor r c => some [.setCursor (BitVec.ofNat 8 r) (BitVec.ofNat 8 c)]
    | .sensorRead => some [.sensorRead]
    | .writeText cs => some (cs.map fun c => .data (charCode c))
  else none

/-- The operation words of an assembly line (R92). -/
def assemble (l : AsmLine) : Option (List Word) := (assembleOps l).map (List.map encode)

end Sys2Proof
end

