-- ==== Sys2Proof/Machine/State.lean ====
section
/-! DEFINITION. The state of the engine (10_state.md), the inputs and outputs of its ports, and reset. -/

namespace Sys2Proof.Machine

/-- `lcd_state` (10_state.md R23). Its fourth code is never taken and has no constructor (DEDUCED, safe: log entry
14). -/
inductive LcdState where
  | uninit
  | initializing
  | ready
deriving DecidableEq, Repr

/-- `dec_state` (R27). Codes 5 to 7 are never taken and have no constructor (log entry 14). -/
inductive DecState where
  | idle
  | resetPulse
  | waitAck
  | readBits
  | validate
deriving DecidableEq, Repr

/-- The outcome codes of 60_exceptions.md R230; 6 to 15 are never written and have no constructor (log
entry 14). -/
inductive ErrCode where
  | none
  | busTransferFailure
  | protocolTimeout
  | checksumMismatch
  | invalidState
  | illegalOp
deriving DecidableEq, Repr

/-- A level of the sensor pin (00_scope.md R12). -/
inductive Level where
  | low
  | high
deriving DecidableEq, Repr

/-- A direction of the sensor pin; `input` is input with pull-up (R12). -/
inductive PinDir where
  | input
  | output
deriving DecidableEq, Repr

/-- The answer of a `BusWrite` (R12). -/
inductive BusAnswer where
  | ok
  | err
deriving DecidableEq, Repr

/-- The port events of R12, as they stand in a port trace. A delay is recorded with its lower bound. -/
inductive Event where
  | busWrite (addr : BitVec 7) (byte : Byte) (answer : BusAnswer)
  | delay (atLeast : Nat)
  | setDir (d : PinDir)
  | write (l : Level)
  | sample (l : Level)
deriving DecidableEq, Repr

/-- A delay performed: its bound and its actual length (R13). -/
structure Wait where
  atLeast : Nat
  actual : Nat
deriving DecidableEq, Repr

/-- What the host may do to the engine (60_exceptions.md R249): read or write `width` bytes at an address
(`MemRead`, `MemWrite`, 00_scope.md R11), or reset it. A reset is held and released in one instant, so that no access
falls while it is held, of which the spec says nothing (70_reset_and_hazards.md R264; DESIGN CHOICE, unsafe: log entry
26). -/
inductive HostAct where
  | read (addr width : Nat)
  | write (addr width : Nat) (value : Word)
  | reset
deriving DecidableEq, Repr

/-- A turn of the host. `pass` lets a running operation go on by one command; `waitIdle` is the poll of
`STATUS.BUSY` until it reads 0 (30_encoding.md R94). DESIGN CHOICE: log entry 5. -/
inductive Turn where
  | act (a : HostAct)
  | pass
  | waitIdle
deriving DecidableEq, Repr

/-- One command of the sequencer: a port event still to be performed, or a write of the state at its point in an
operation's pseudocode. -/
inductive Cmd where
  /-- `BusWrite(P_I2C_ADDR, byte)`, and the raise if it fails (40_nibble_transport.md R111) -/
  | busWrite (byte : Byte)
  /-- `Delay(t)` -/
  | delay (t : Nat)
  /-- `GpioSetDir(d); s.pin_dir <- d` -/
  | setDir (d : PinDir)
  /-- `GpioWrite(l); s.pin_out <- l` -/
  | pinWrite (l : Level)
  /-- `s.dec_state <- d` -/
  | enterDec (d : DecState)
  /-- the clearing of frame, bit count and ack at the start of a read (42_sensor_decoder.md R190) -/
  | clearFrame
  /-- the acknowledge sample (R188) -/
  | ackSample
  /-- the next sample of measurement `i`, of which `count` samples were at the expected level (R181) -/
  | poll (i count : Nat)
  /-- the Validate step (R193) -/
  | validate
  /-- record an outcome code and end the operation (60_exceptions.md R232) -/
  | endWith (code : ErrCode)
  /-- `lcd_state` becomes READY and INIT ends with code NONE (41_lcd_controller.md R141) -/
  | initDone
  /-- `dec_state` becomes IDLE and the read ends with the code Validate gave (R185) -/
  | readDone
deriving DecidableEq, Repr

/-- The frame register file `frame[0..4]` (10_state.md R28). -/
structure Frame where
  humInt : Byte
  humFrac : Byte
  tempInt : Byte
  tempFrac : Byte
  checksum : Byte
deriving DecidableEq, Repr

/-- The state an operation computes in a working copy and commits at its completion (10_state.md R48). -/
structure Results where
  /-- `cursor_row` (R25) -/
  cursorRow : BitVec 2
  /-- `cursor_col` (R25) -/
  cursorCol : Byte
  /-- `frame[0..4]` (R28) -/
  frame : Frame
  /-- `bit_count` (R29) -/
  bitCount : BitVec 6
  /-- `ack_seen` (R31) -/
  ackSeen : Bool
  /-- `hum` (R32) -/
  hum : Byte
  /-- `temp` (R32) -/
  temp : Byte
  /-- `valid` (R32) -/
  valid : Bool
  /-- `last_err` (R33) -/
  lastErr : ErrCode
deriving DecidableEq, Repr

/-- The outside world's side of the ports, still to come: the host's turns, the bus's answers, the pin's levels, and
the number of free values drawn so far. The model's own fields (log entries 5 to 8). -/
structure World where
  script : List Turn
  busAnswers : List BusAnswer
  pinLevels : List Level
  draws : Nat
deriving DecidableEq, Repr

/-- What came out of the engine so far, oldest first: the port trace (00_scope.md R13), the delays with their actual
lengths, and the values the host's reads returned. The model's own fields (log entries 8, 9). -/
structure Log where
  trace : List Event
  waits : List Wait
  reads : List Word
deriving DecidableEq, Repr

/-- One engine (log entry 16), without a memory (log entry 19), and its ports. -/
structure State where
  /-- the configuration, which nothing writes (R8, R37; log entry 1) -/
  cfg : Config
  /-- `busy` (10_state.md R22) -/
  busy : Bool
  /-- `lcd_state` (R23) -/
  lcd : LcdState
  /-- `backlight_on` (R26) -/
  backlight : Bool
  /-- `dec_state` (R27) -/
  dec : DecState
  /-- `meas_index` (R30) -/
  measIndex : BitVec 7
  /-- `ovr` (R34) -/
  ovr : Bool
  /-- `pin_dir` (R35) -/
  pinDir : PinDir
  /-- `pin_out` (R35) -/
  pinOut : Level
  /-- the committed results, which the registers show (R48) -/
  res : Results
  /-- the running operation's working copy (R48); without meaning while idle -/
  work : Results
  /-- the running operation's remaining commands: its position in its port trace (R39) -/
  seq : List Cmd
  world : World
  log : Log
deriving DecidableEq, Repr

/-- A stop of the machine. The engine has none: no access faults (20_memory.md R69), and an error ends the
operation and leaves the engine idle (60_exceptions.md R239). No constructor, so no step of the model faults. -/
inductive Fault where
deriving DecidableEq, Repr

/-- Why a step has no meaning. -/
inductive Refusal where
  /-- raised by an arm of `exec` for an operation not modelled; safe. No arm of this model uses it -/
  | notModelled (mnemonic : String)
  /-- raised by `step`, and by every operation, when the configuration is not a legal one of 00_scope.md R8: a wire
  map with two signals on one bit is refused by R9, another value outside 'legal values' by log entry 2; safe -/
  | illFormedConfig
deriving DecidableEq, Repr

/-- The results after reset (10_state.md R49). -/
def Results.atReset (c : Config) : Results where
  cursorRow := 0
  cursorCol := 0
  frame := { humInt := 0, humFrac := 0, tempInt := 0, tempFrac := 0, checksum := 0 }
  bitCount := 0
  ackSeen := false
  hum := c.sentinelHum
  temp := c.sentinelTemp
  valid := false
  lastErr := .none

/-- The engine right after reset, under a configuration (R49), with nothing listed on its ports. The values of
`work`, `seq`, `world` and `log` are the model's (DESIGN CHOICE: log entry 10). -/
def State.resetWith (c : Config) : State where
  cfg := c
  busy := false
  lcd := .uninit
  backlight := c.backlightInit
  dec := .idle
  measIndex := 0
  ovr := false
  pinDir := .input
  pinOut := .low
  res := Results.atReset c
  work := Results.atReset c
  seq := []
  world := { script := [], busAnswers := [], pinLevels := [], draws := 0 }
  log := { trace := [], waits := [], reads := [] }

/-- The engine right after reset, under the default configuration. -/
def State.reset : State := State.resetWith Config.defaults

end Sys2Proof.Machine
end

