-- ==== Sys2Proof/Machine/Operands.lean ====
section
/-! DEFINITION. What the operands of the LCD operations become on the wire: nibbles, expander bytes, DDRAM addresses,
command bytes, and the transfer macros (30_encoding.md R85 to R89, 40_nibble_transport.md, 41_lcd_controller.md). -/

namespace Sys2Proof.Machine

/-- The high nibble `v[7:4]` (30_encoding.md R88). -/
def hiNibble (v : Byte) : Nibble := v.extractLsb' 4 4

/-- The low nibble `v[3:0]` (R88). -/
def loNibble (v : Byte) : Nibble := v.extractLsb' 0 4

/-- One signal placed at its bit position of the expander byte. -/
def signalAt (b : Bool) (pos : Fin 8) : Byte := if b then BitVec.twoPow 8 pos.val else 0

/-- `XBYTE(n, rs, en, bl)`, with `rw = 0` (R85, R86). -/
def xbyte (m : WireMap) (n : Nibble) (rs en bl : Bool) : Byte :=
  signalAt rs m.rs ||| signalAt false m.rw ||| signalAt en m.en ||| signalAt bl m.bl
    ||| signalAt (n.getLsbD 0) m.d4 ||| signalAt (n.getLsbD 1) m.d5
    ||| signalAt (n.getLsbD 2) m.d6 ||| signalAt (n.getLsbD 3) m.d7

/-- `CMD_FUNCTION_SET` (R89): 4-bit, 2-line, 5x8. The byte, as those below, is the spec's from general knowledge
(PRESUMED, unsafe: log entry 22). -/
def cmdFunctionSet : Byte := 0x28

/-- `CMD_DISPLAY_CONTROL` (R89): display on, cursor off, blink off. -/
def cmdDisplayControl : Byte := 0x0C

/-- `CMD_CLEAR` (R89). -/
def cmdClear : Byte := 0x01

/-- `CMD_ENTRY_MODE` (R89): increment, no shift. -/
def cmdEntryMode : Byte := 0x06

/-- `CMD_SET_DDRAM(a)` (R89). -/
def cmdSetDdram (a : BitVec 7) : Byte := 0x80 ||| a.setWidth 8

/-- `ROW_BASE` (00_scope.md R10). -/
def rowBase (row : BitVec 2) : Nat :=
  match row with
  | 0 => 0x00
  | 1 => 0x40
  | 2 => 0x14
  | _ => 0x54

/-- The effective row `min(r, P_NUM_ROWS - 1)` (41_lcd_controller.md R144). -/
def rowEff (c : Config) (r : Byte) : BitVec 2 := BitVec.ofNat 2 (min r.toNat (c.numRows - 1))

/-- The DDRAM address `(ROW_BASE[e] + c) mod 128` (R145; PRESUMED, unsafe: log entry 22). -/
def ddram (e : BitVec 2) (col : Byte) : BitVec 7 := BitVec.ofNat 7 ((rowBase e + col.toNat) % 128)

/-- `NIBBLE(n, rs)`: the nibble with EN set, then with EN cleared, each with its hold (40_nibble_transport.md R111). -/
def nibbleCmds (c : Config) (bl : Bool) (n : Nibble) (rs : Bool) : List Cmd :=
  [ .busWrite (xbyte c.wireMap n rs true bl), .delay c.tEnHold,
    .busWrite (xbyte c.wireMap n rs false bl), .delay c.tSettle ]

/-- `XFER8(v, rs)`: high nibble first (R113, 20_memory.md R65). -/
def xferCmds (c : Config) (bl : Bool) (v : Byte) (rs : Bool) : List Cmd :=
  nibbleCmds c bl (hiNibble v) rs ++ nibbleCmds c bl (loNibble v) rs

/-- The port events of INIT, in order (41_lcd_controller.md R141). -/
def initCmds (c : Config) (bl : Bool) : List Cmd :=
  [.delay c.tPowerup]
    ++ nibbleCmds c bl 0x3 false ++ [.delay c.tInitGap1]
    ++ nibbleCmds c bl 0x3 false ++ [.delay c.tInitGap2]
    ++ nibbleCmds c bl 0x3 false
    ++ nibbleCmds c bl 0x2 false
    ++ xferCmds c bl cmdFunctionSet false
    ++ xferCmds c bl cmdDisplayControl false
    ++ xferCmds c bl cmdClear false ++ [.delay c.tClear]
    ++ xferCmds c bl cmdEntryMode false

/-- The port events of CLEAR, in order (R143). -/
def clearCmds (c : Config) (bl : Bool) : List Cmd := xferCmds c bl cmdClear false ++ [.delay c.tClear]

/-- The level measurement `i` expects: High when `i` is even, Low when odd (42_sensor_decoder.md R184). -/
def expectedLevel (i : Nat) : Level := if i % 2 = 0 then .high else .low

/-- Whether the high pulse of measurement `i` decides a data bit (R184, R185). -/
def carriesBit (c : Config) (i : Nat) : Bool :=
  decide (c.nPreamble ≤ i) && decide (i % 2 = 0) && decide (i ≤ c.nPreamble + 2 * (c.nBits - 1))

/-- The commands of SENSOR_READ, in the order of its pseudocode (R185). -/
def readCmds (c : Config) : List Cmd :=
  [ .enterDec .resetPulse, .clearFrame, .setDir .output, .pinWrite .low, .delay c.tResetLow, .setDir .input,
    .delay c.tAckWait, .enterDec .waitAck, .ackSample, .enterDec .readBits ]
    ++ (List.range c.nMeas).map (fun i => .poll i 0)
    ++ [.enterDec .validate, .validate, .setDir .input, .readDone]

end Sys2Proof.Machine
end

