-- ==== Sys2Proof/Machine/Flags.lean ====
section
/-! DEFINITION. The register fields and status flags computed from the state (10_state.md R42 to R47), and the flags
and codes a sensor read computes (42_sensor_decoder.md R191 to R194). -/

namespace Sys2Proof.Machine

/-- The encoding of `lcd_state` (10_state.md R23). -/
def LcdState.code : LcdState → BitVec 2
  | .uninit => 0
  | .initializing => 1
  | .ready => 2

/-- The encoding of `dec_state` (R27). -/
def DecState.code : DecState → BitVec 3
  | .idle => 0
  | .resetPulse => 1
  | .waitAck => 2
  | .readBits => 3
  | .validate => 4

/-- The numbering of the outcome codes (60_exceptions.md R230). -/
def ErrCode.code : ErrCode → BitVec 4
  | .none => 0
  | .busTransferFailure => 1
  | .protocolTimeout => 2
  | .checksumMismatch => 3
  | .invalidState => 4
  | .illegalOp => 5

/-- `STATUS` (10_state.md R42). -/
def State.statusWord (s : State) : Word :=
  placeAt 0 (BitVec.ofBool s.busy) ||| placeAt 1 s.lcd.code ||| placeAt 3 (BitVec.ofBool s.backlight)
    ||| placeAt 4 s.dec.code ||| placeAt 8 s.res.lastErr.code ||| placeAt 12 (BitVec.ofBool s.ovr)

/-- `CURSOR` (R44). -/
def State.cursorWord (s : State) : Word := placeAt 0 s.res.cursorRow ||| placeAt 8 s.res.cursorCol

/-- `READING` (R45). -/
def State.readingWord (s : State) : Word :=
  placeAt 0 s.res.hum ||| placeAt 8 s.res.temp ||| placeAt 16 (BitVec.ofBool s.res.valid)

/-- `FRAME0` (R46). -/
def State.frame0Word (s : State) : Word :=
  placeAt 0 s.res.frame.humInt ||| placeAt 8 s.res.frame.humFrac ||| placeAt 16 s.res.frame.tempInt
    ||| placeAt 24 s.res.frame.tempFrac

/-- `FRAME1` (R47). -/
def State.frame1Word (s : State) : Word :=
  placeAt 0 s.res.frame.checksum ||| placeAt 8 s.res.bitCount ||| placeAt 16 (BitVec.ofBool s.res.ackSeen)

/-- A bit shifted into a byte from the right: `((b << 1) OR bit) mod 256` (42_sensor_decoder.md R191). -/
def shiftIn (b : Byte) (bit : Bool) : Byte := b <<< 1 ||| (BitVec.ofBool bit).setWidth 8

/-- Bit `k` of the frame shifted into `frame[k div 8]` (R191). There are 40 bits; a higher `k` has no byte. -/
def Frame.record (f : Frame) (k : Nat) (bit : Bool) : Frame :=
  match k / 8 with
  | 0 => { f with humInt := shiftIn f.humInt bit }
  | 1 => { f with humFrac := shiftIn f.humFrac bit }
  | 2 => { f with tempInt := shiftIn f.tempInt bit }
  | 3 => { f with tempFrac := shiftIn f.tempFrac bit }
  | 4 => { f with checksum := shiftIn f.checksum bit }
  | _ => f

/-- The sum of the four data bytes mod 256 (R193). -/
def Frame.sum (f : Frame) : Byte :=
  BitVec.ofNat 8 ((f.humInt.toNat + f.humFrac.toNat + f.tempInt.toNat + f.tempFrac.toNat) % 256)

/-- The bit a high pulse of `d` polls encodes: 1 above the threshold, 0 at or below it (R192). -/
def pulseBit (c : Config) (d : Nat) : Bool := decide (c.tBitThreshold < d)

/-- The effect of measurement `i` ending after `d` polls on the working copy (R185). -/
def Results.measured (c : Config) (i d : Nat) (w : Results) : Results :=
  if carriesBit c i then
    { w with frame := w.frame.record w.bitCount.toNat (pulseBit c d), bitCount := w.bitCount + 1 }
  else w

/-- The cleared frame, bit count and ack of a fresh read (R190). -/
def Results.cleared (w : Results) : Results :=
  { w with
    frame := { humInt := 0, humFrac := 0, tempInt := 0, tempFrac := 0, checksum := 0 }
    bitCount := 0
    ackSeen := false }

/-- The Validate step: reading, `valid` and outcome code (R193, R194). -/
def Results.validated (c : Config) (w : Results) : Results :=
  if w.bitCount.toNat = c.nBits ∧ w.frame.checksum = w.frame.sum then
    { w with valid := true, hum := w.frame.humInt, temp := w.frame.tempInt, lastErr := .none }
  else
    { w with
      valid := false
      hum := c.sentinelHum
      temp := c.sentinelTemp
      lastErr := if w.bitCount.toNat < c.nBits then .protocolTimeout else .checksumMismatch }

end Sys2Proof.Machine
end

