-- ==== Sys2Proof/Machine/Ops.lean ====
section
/-! DEFINITION. The named operations over the state: its single updates, the register window, the port events, the
end of an operation by `raise` (60_exceptions.md R232), reset, the sequencer, and the acceptance of an operation. -/

namespace Sys2Proof.Machine

/-! ### Single updates -/

def State.withLcd (s : State) (l : LcdState) : State := { s with lcd := l }

def State.withDec (s : State) (d : DecState) : State := { s with dec := d }

def State.withMeasIndex (s : State) (i : BitVec 7) : State := { s with measIndex := i }

def State.withOvr (s : State) (b : Bool) : State := { s with ovr := b }

def State.withPinDir (s : State) (d : PinDir) : State := { s with pinDir := d }

def State.withPinOut (s : State) (l : Level) : State := { s with pinOut := l }

def State.withWork (s : State) (w : Results) : State := { s with work := w }

def State.withSeq (s : State) (cs : List Cmd) : State := { s with seq := cs }

def State.withScript (s : State) (ts : List Turn) : State := { s with world := { s.world with script := ts } }

/-- A port event takes its place at the end of the port trace (00_scope.md R12). -/
def State.emit (s : State) (e : Event) : State := { s with log := { s.log with trace := s.log.trace ++ [e] } }

/-- A host read returns a value. -/
def State.answerRead (s : State) (w : Word) : State := { s with log := { s.log with reads := s.log.reads ++ [w] } }

/-! ### Inputs: listed first, then free values -/

/-- The answer of the next `BusWrite` (R12, O1; log entry 6). -/
def State.nextAnswer (s : State) : BusAnswer :=
  match s.world.busAnswers with
  | a :: _ => a
  | [] => if Config.freeBusOk s.world.draws then .ok else .err

/-- The next bus answer is used up. -/
def State.popAnswer (s : State) : State :=
  match s.world.busAnswers with
  | _ :: as => { s with world := { s.world with busAnswers := as } }
  | [] => { s with world := { s.world with draws := s.world.draws + 1 } }

/-- The level the next `GpioSample` sees (R12, O2; log entry 7). -/
def State.nextLevel (s : State) : Level :=
  match s.world.pinLevels with
  | l :: _ => l
  | [] => if Config.freePinHigh s.world.draws then .high else .low

/-- The next pin level is used up. -/
def State.popLevel (s : State) : State :=
  match s.world.pinLevels with
  | _ :: ls => { s with world := { s.world with pinLevels := ls } }
  | [] => { s with world := { s.world with draws := s.world.draws + 1 } }

/-- `Delay(t)`: an event with its lower bound, and beside it an actual length not below the bound (R12, R13, O3; log
entry 8). -/
def State.elapse (s : State) (t : Nat) : State :=
  { s with
    world := { s.world with draws := s.world.draws + 1 }
    log :=
      { s.log with
        trace := s.log.trace ++ [.delay t]
        waits := s.log.waits ++ [{ atLeast := t, actual := t + Config.freeExtraDelay s.world.draws }] } }

/-! ### The end of an operation, and reset -/

/-- The commit point (10_state.md R48): the working copy becomes the state in one step, at the moment `busy` returns
to 0. -/
def State.commit (s : State) : State := { s with res := s.work, busy := false, seq := [] }

/-- `raise Error(code)` (60_exceptions.md R232): no further event, the working copy is committed as it stands with
the code, and the engine goes idle. Live state stays as it is. -/
def State.raise (s : State) (code : ErrCode) : State := (s.withWork { s.work with lastErr := code }).commit

/-- Reset (70_reset_and_hazards.md R260, R261): every piece of state takes its reset value, at once and without a
port event; nothing of a running operation is committed. The configuration, and what the ports still bring and have
brought, are not the engine's state (DESIGN CHOICE, unsafe: log entry 10). The pin's direction becomes Input, but no
`GpioSetDir(Input)` is added to the port trace, also where the pin was Output (DESIGN CHOICE, unsafe: log entry 25). It has
no duration (log entry 26). -/
def State.hardReset (s : State) : State :=
  { State.resetWith s.cfg with world := s.world, log := s.log }

/-! ### The register window (10_state.md R40 to R47, 20_memory.md R61 to R63) -/

/-- The six registers of the window (R40). -/
inductive Reg where
  | op
  | status
  | cursor
  | reading
  | frame0
  | frame1
deriving DecidableEq, Repr

/-- The byte offset of each register (R40). -/
def Reg.offset : Reg → Nat
  | .op => 0x00
  | .status => 0x04
  | .cursor => 0x08
  | .reading => 0x0C
  | .frame0 => 0x10
  | .frame1 => 0x14

/-- Whether an address lies in the 32-byte window (R40, R60). The model asks it of an access's first address alone: an
access that starts below the window and reaches into it is none of the window's, one that starts in it and reaches past
its end is (DESIGN CHOICE, unsafe: log entry 23). -/
def inWindow (c : Config) (addr : Nat) : Bool := decide (c.regBase ≤ addr) && decide (addr < c.regBase + 32)

/-- The register an access reaches: only a 32-bit access at an address divisible by 4 reaches one (20_memory.md
R62; DESIGN CHOICE, safe: log entry 11), and the offsets 0x18 to 0x1F are unmapped (R40). -/
def regAt (c : Config) (addr width : Nat) : Option Reg :=
  if width = 4 ∧ addr % 4 = 0 then
    if addr = c.regBase + Reg.op.offset then some .op
    else if addr = c.regBase + Reg.status.offset then some .status
    else if addr = c.regBase + Reg.cursor.offset then some .cursor
    else if addr = c.regBase + Reg.reading.offset then some .reading
    else if addr = c.regBase + Reg.frame0.offset then some .frame0
    else if addr = c.regBase + Reg.frame1.offset then some .frame1
    else none
  else none

/-- The value a register shows; `OP` reads as 0 (R41). -/
def State.regWord (s : State) : Reg → Word
  | .op => 0
  | .status => s.statusWord
  | .cursor => s.cursorWord
  | .reading => s.readingWord
  | .frame0 => s.frame0Word
  | .frame1 => s.frame1Word

/-- The value of a read in the window: an access that reaches no register reads 0 (R40, R62). -/
def State.windowRead (s : State) (addr width : Nat) : Word :=
  match regAt s.cfg addr width with
  | some r => s.regWord r
  | none => 0

/-- A host read: no side effect on the engine (R63). An address outside the window is not the engine's, which then
answers nothing (DEDUCED, safe: log entry 12). -/
def State.hostRead (s : State) (addr width : Nat) : State :=
  if inWindow s.cfg addr then s.answerRead (s.windowRead addr width) else s

/-- A write to `STATUS`: bit 12 clears `ovr`, every other bit is ignored (10_state.md R43). -/
def State.writeStatus (s : State) (w : Word) : State := if w.getLsbD 12 then s.withOvr false else s

/-- A host write that starts no operation: `OP` while busy is dropped and sets `ovr` (R41); `STATUS` clears `ovr`
(R43); every other write is ignored (R40, R62, R63). An `OP` write while idle is an operation, taken by `fetch`. -/
def State.hostWrite (s : State) (addr width : Nat) (w : Word) : State :=
  match regAt s.cfg addr width with
  | some .op => if s.busy then s.withOvr true else s
  | some .status => s.writeStatus w
  | _ => s

/-- What the host does, other than starting an operation. -/
def State.hostAct (s : State) : HostAct → State
  | .read addr width => s.hostRead addr width
  | .write addr width w => s.hostWrite addr width w
  | .reset => s.hardReset

/-! ### The sequencer -/

/-- The host's turns that land before the engine's next command: all up to a `pass`, to a `waitIdle` (the host waits
for the end of the operation), or to a reset, which ends the operation (log entry 5). -/
def State.hostTurns (s : State) : List Turn → State
  | [] => s.withScript []
  | .pass :: ts => s.withScript ts
  | .waitIdle :: ts => s.withScript (.waitIdle :: ts)
  | .act a :: ts =>
    if ((s.withScript ts).hostAct a).busy then ((s.withScript ts).hostAct a).hostTurns ts
    else (s.withScript ts).hostAct a

/-- The moment before a command, in which the host may act. -/
def State.gap (s : State) : State := s.hostTurns s.world.script

/-- Whether a command is a sample of a measurement. -/
def Cmd.isPoll : Cmd → Bool
  | .poll _ _ => true
  | _ => false

/-- `BusWrite(P_I2C_ADDR, b)`; on `Err` the operation ends at once (40_nibble_transport.md R111, R114). -/
def State.performWrite (s : State) (b : Byte) : State :=
  match s.nextAnswer with
  | .ok => s.popAnswer.emit (.busWrite s.cfg.i2cAddr b .ok)
  | .err => (s.popAnswer.emit (.busWrite s.cfg.i2cAddr b .err)).raise .busTransferFailure

/-- The acknowledge sample (42_sensor_decoder.md R188). -/
def State.performAck (s : State) : State :=
  (s.popLevel.emit (.sample s.nextLevel)).withWork { s.work with ackSeen := decide (s.nextLevel = .low) }

/-- One sample of measurement `i`, of which `n` samples were at the expected level (R181). A sample at the other level
ends the measurement with `Duration(n)`; the last sample the timeout allows ends it with `Timeout`, which skips every
later measurement (R185); otherwise the next sample follows after `T_POLL`. DEDUCED, safe: `meas_index` is live (log
entry 13), and the timeout is tested by `≤` (log entry 20). -/
def State.performPoll (s : State) (i n : Nat) : State :=
  let t := (s.popLevel.emit (.sample s.nextLevel)).withMeasIndex (BitVec.ofNat 7 i)
  if s.nextLevel ≠ expectedLevel i then t.withWork (s.work.measured s.cfg i n)
  else if s.cfg.tMeasTimeout ≤ n + 1 then t.withSeq (s.seq.dropWhile Cmd.isPoll)
  else t.withSeq (.delay s.cfg.tPoll :: .poll i (n + 1) :: s.seq)

/-- One command of the running operation, already taken off the sequence. DESIGN CHOICE, safe: READY and IDLE come with
the commit (log entry 15). -/
def State.perform (s : State) : Cmd → State
  | .busWrite b => s.performWrite b
  | .delay t => s.elapse t
  | .setDir d => (s.emit (.setDir d)).withPinDir d
  | .pinWrite l => (s.emit (.write l)).withPinOut l
  | .enterDec d => s.withDec d
  | .clearFrame => s.withWork s.work.cleared
  | .ackSample => s.performAck
  | .poll i n => s.performPoll i n
  | .validate => s.withWork (s.work.validated s.cfg)
  | .endWith code => s.raise code
  | .initDone => (s.withLcd .ready).raise .none
  | .readDone => (s.withDec .idle).commit

/-- The engine takes its next command, if it still has one. -/
def State.advance (s : State) : State :=
  match s.seq with
  | [] => s
  | c :: cs => (s.withSeq cs).perform c

/-- One move of a running operation: the host's turns, then the next command. -/
def State.tick (s : State) : State := s.gap.advance

/-- Moves until no command is left, at most `n`. -/
def State.run : Nat → State → State
  | 0, s => s
  | n + 1, s =>
    match s.seq with
    | [] => s
    | _ :: _ => State.run n s.tick

/-- How many moves a command can take: a measurement one for each sample and each wait between two samples. -/
def Cmd.cost (c : Config) : Cmd → Nat
  | .poll _ n => 2 * (c.tMeasTimeout - n) + 1
  | _ => 1

/-- How many moves the remaining commands can take. -/
def seqCost (c : Config) (cs : List Cmd) : Nat := (cs.map (Cmd.cost c)).sum

/-- The running operation, brought to its end. -/
def State.resume (s : State) : State := s.run (seqCost s.cfg s.seq)

/-! ### Acceptance -/

/-- An accepted operation: busy from now on (10_state.md R22, R41), with its working copy and its commands. -/
def State.begin (s : State) (w : Results) (cs : List Cmd) : State := { s with busy := true, work := w, seq := cs }

/-- The host issues an operation (R41): dropped while busy, with `ovr` set; otherwise performed from `started` to its
end. A configuration that is not legal is refused (00_scope.md R9). DESIGN CHOICE, safe: log entry 18. -/
def State.issue (s started : State) : Host.Outcome State Fault Refusal :=
  if s.cfg.wf then
    if s.busy then .next (s.withOvr true) else .next started.resume
  else .refused .illFormedConfig

/-- An operation that ends with a code and without a port event (60_exceptions.md R231, R234). DESIGN CHOICE, safe: it
is busy for one command (log entry 15). -/
def State.turnedAway (s : State) (code : ErrCode) : State := s.begin s.res [.endWith code]

/-- An LCD operation other than INIT: it runs when `lcd_state` is READY and is turned away with INVALID_STATE
otherwise (R234). Its logical update stands in the working copy before its first event (40_nibble_transport.md R115). -/
def State.lcdStart (s : State) (w : Results) (cs : List Cmd) : State :=
  if s.lcd = .ready then s.begin w (cs ++ [.endWith .none]) else s.turnedAway .invalidState

/-- A word no row of the opcode map covers (30_encoding.md R90, 60_exceptions.md R231). -/
def execIllegal (s : State) : Host.Outcome State Fault Refusal := s.issue (s.turnedAway .illegalOp)

end Sys2Proof.Machine
end

