-- ==== Sys2Proof/Machine/Lcd.lean ====
section
/-! DEFINITION. The operations of the LcdController unit (41_lcd_controller.md): INIT, CLEAR and SET_CURSOR. -/

namespace Sys2Proof.Machine

/-- `INIT` accepted (R141): it runs only from UNINIT; `lcd_state` is INITIALIZING from its acceptance on
(10_state.md R23). -/
def startInit (s : State) : State :=
  if s.lcd = .uninit then (s.begin s.res (initCmds s.cfg s.backlight ++ [.initDone])).withLcd .initializing
  else s.turnedAway .invalidState

/-- `INIT` (R141). -/
def execInit (s : State) : Host.Outcome State Fault Refusal := s.issue (startInit s)

/-- `CLEAR` accepted (R143): the cursor becomes (0, 0), the clear command is sent, and `T_CLEAR` is waited. -/
def startClear (s : State) : State :=
  s.lcdStart { s.res with cursorRow := 0, cursorCol := 0 } (clearCmds s.cfg s.backlight)

/-- `CLEAR` (R143). -/
def execClear (s : State) : Host.Outcome State Fault Refusal := s.issue (startClear s)

/-- `SET_CURSOR r, c` accepted (R146): the clamped row and the column become the cursor, and its DDRAM address is
sent. -/
def startSetCursor (r c : Byte) (s : State) : State :=
  s.lcdStart { s.res with cursorRow := rowEff s.cfg r, cursorCol := c }
    (xferCmds s.cfg s.backlight (cmdSetDdram (ddram (rowEff s.cfg r) c)) false)

/-- `SET_CURSOR r, c` (R146). -/
def execSetCursor (r c : Byte) (s : State) : Host.Outcome State Fault Refusal := s.issue (startSetCursor r c s)

end Sys2Proof.Machine
end

