-- ==== Sys2Proof/Machine/Sensor.lean ====
section
/-! DEFINITION. The operation of the SingleWireDecoder unit (42_sensor_decoder.md): SENSOR_READ. -/

namespace Sys2Proof.Machine

/-- `SENSOR_READ` accepted (R185): one attempt, allowed in every `lcd_state`. -/
def startSensorRead (s : State) : State := s.begin s.res (readCmds s.cfg)

/-- `SENSOR_READ` (R185). -/
def execSensorRead (s : State) : Host.Outcome State Fault Refusal := s.issue (startSensorRead s)

end Sys2Proof.Machine
end

