-- ==== Sys2Proof/Machine/Transport.lean ====
section
/-! DEFINITION. The operations of the NibbleTransport unit (40_nibble_transport.md): COMMAND and DATA. -/

namespace Sys2Proof.Machine

/-- `COMMAND v` accepted (R120): the byte with RS = 0; the cursor stays, whatever `v` is. -/
def startCommand (v : Byte) (s : State) : State := s.lcdStart s.res (xferCmds s.cfg s.backlight v false)

/-- `COMMAND v` (R120). -/
def execCommand (v : Byte) (s : State) : Host.Outcome State Fault Refusal := s.issue (startCommand v s)

/-- `DATA v` accepted (R122): the byte with RS = 1; the column advances mod 256. -/
def startData (v : Byte) (s : State) : State :=
  s.lcdStart { s.res with cursorCol := s.res.cursorCol + 1 } (xferCmds s.cfg s.backlight v true)

/-- `DATA v` (R122). -/
def execData (v : Byte) (s : State) : Host.Outcome State Fault Refusal := s.issue (startData v s)

end Sys2Proof.Machine
end

