-- ==== Sys2Proof/Machine/Dispatch.lean ====
section
/-! DEFINITION. One arm per operation of the opcode map (30_encoding.md R83). -/

namespace Sys2Proof.Machine

def exec (i : Instr) (s : State) : Host.Outcome State Fault Refusal :=
  match i with
  | .init => Sys2Proof.Machine.execInit s
  | .command v => Sys2Proof.Machine.execCommand v s
  | .data v => Sys2Proof.Machine.execData v s
  | .clear => Sys2Proof.Machine.execClear s
  | .setCursor row col => Sys2Proof.Machine.execSetCursor row col s
  | .sensorRead => Sys2Proof.Machine.execSensorRead s

end Sys2Proof.Machine
end

