-- ==== Sys2Proof/Machine/Fetch.lean ====
section
/-! DEFINITION. The engine's side of the host interface while it is idle: which operation word comes next
(10_state.md R21, R41), and every other turn of the host. -/

namespace Sys2Proof.Machine

/-- The operation word of the host's next turn, if that turn writes one to `OP` (R41). -/
def State.fetch (s : State) : Option Word :=
  match s.world.script with
  | .act (.write addr width w) :: _ => if regAt s.cfg addr width = some .op then some w else none
  | _ => none

/-- The host's next turn is taken off the script. -/
def State.popTurn (s : State) : State := s.withScript s.world.script.tail

/-- A word the host writes to `OP`, decoded and executed (30_encoding.md R84). -/
def runWord (w : Word) (s : State) : Host.Outcome State Fault Refusal :=
  match decode w with
  | .ok i => exec i s
  | .error _ => execIllegal s

/-- A turn of the host that starts no operation. With no turn left the idle engine waits (70_reset_and_hazards.md
R263); `pass` and `waitIdle` have nothing to wait for (DESIGN CHOICE, safe: log entry 21). -/
def State.otherTurn (s : State) : State :=
  match s.world.script with
  | .act a :: _ => s.popTurn.hostAct a
  | _ => s.popTurn

/-- The host writes an operation word to `OP` as its next turn, and the engine is idle to accept it
(DESIGN CHOICE, safe: log entry 17). -/
def State.offerWord (s : State) (w : Word) : State :=
  { s with
    busy := false
    seq := []
    world :=
      { s.world with script := .act (.write (s.cfg.regBase + Reg.op.offset) 4 w) :: s.world.script } }

end Sys2Proof.Machine
end

