-- ==== Sys2Proof/Machine/Step.lean ====
section
/-! DEFINITION. One step of the machine: the running operation to its end, or the host's next turn. -/

namespace Sys2Proof.Machine

/-- One step. A configuration that is not legal is refused (00_scope.md R9). An operation in progress is brought to
its end, host turns included. An idle engine takes the host's next turn: an operation word is executed whole, any
other turn has its effect. -/
def step (s : State) : Host.Outcome State Fault Refusal :=
  if s.cfg.wf then
    if s.busy then .next s.resume
    else
      match s.fetch with
      | some w => runWord w s.popTurn
      | none => .next s.otherTurn
  else .refused .illFormedConfig

/-- The state in which `step` executes an opcode-table word next (log entry 17). -/
def State.withFetchWord (s : State) (nbits w : Nat) : State := s.offerWord (tableWord nbits w)

end Sys2Proof.Machine
end

