-- ==== Sys2Proof/Machine/Started.lean ====
section
/-! DEFINITION. The state each operation starts from when it is accepted (10_state.md R41), in one function. -/

namespace Sys2Proof.Machine

/-- The engine right after the acceptance of an operation, before its first command (R22, R41). -/
def State.started (s : State) : Instr → State
  | .init => startInit s
  | .command v => startCommand v s
  | .data v => startData v s
  | .clear => startClear s
  | .setCursor r c => startSetCursor r c s
  | .sensorRead => startSensorRead s

end Sys2Proof.Machine
end

