-- ==== Sys2Proof/Machine/Text.lean ====
section
/-! DEFINITION. WRITE_TEXT, the host's procedure over DATA (30_encoding.md R93, 41_lcd_controller.md R150). -/

namespace Sys2Proof.Machine

/-- The host waits until `STATUS.BUSY` reads 0. -/
def State.awaitIdle (s : State) : State := if s.busy then s.resume else s

/-- `STATUS.LAST_ERR` as the host reads it (10_state.md R42). -/
def State.lastErrField (s : State) : BitVec 4 := s.statusWord.extractLsb' 8 4

/-- WRITE_TEXT (R150): one DATA per character, each waited for; the first nonzero `LAST_ERR` stops it, and the
remaining characters are not sent (70_reset_and_hazards.md R271). -/
def writeText : List Byte → State → Host.Outcome State Fault Refusal
  | [], s => .next s
  | c :: cs, s =>
    match exec (.data c) s with
    | .next t => if t.awaitIdle.lastErrField = 0 then writeText cs t.awaitIdle else .next t.awaitIdle
    | .fault r => .fault r
    | .refused r => .refused r

end Sys2Proof.Machine
end

