-- ==== Sys2Proof/Safety.lean ====
section
/-! DEFINITION. The terms claims about the engine are stated in: a host that stays quiet or does not reset, the
invariant between operations, the port traces the rules list, and the pulse train of a read. -/

namespace Sys2Proof.Machine

/-! ### What the host does while an operation runs -/

/-- The host does nothing until the operation it issues next has ended. -/
def State.Quiet (s : State) : Prop := s.world.script = [] ∨ s.world.script.head? = some .waitIdle

/-- No reset is among the host's turns. -/
def State.NoReset (s : State) : Prop := Turn.act .reset ∉ s.world.script

/-- The state with the host left out: no turns to come, `ovr` clear, no answered reads. What an operation does to the
rest may not depend on these (10_state.md R41, R43, 20_memory.md R63). -/
def State.hostless (s : State) : State :=
  { s with ovr := false, world := { s.world with script := [] }, log := { s.log with reads := [] } }

/-- The engine is idle and its configuration legal: it accepts an operation (10_state.md R41, 00_scope.md R9). -/
structure State.Accepts (s : State) : Prop where
  legal : s.cfg.wf = true
  idle : s.busy = false

/-! ### The invariant between operations -/

/-- The reading invariant (10_state.md R32). -/
def Results.ReadingOk (c : Config) (r : Results) : Prop :=
  if r.valid then
    r.bitCount.toNat = 40 ∧ r.frame.checksum = r.frame.sum ∧ r.hum = r.frame.humInt ∧ r.temp = r.frame.tempInt
  else r.hum = c.sentinelHum ∧ r.temp = c.sentinelTemp

/-- What holds of the engine between operations. -/
structure State.Inv (s : State) : Prop where
  /-- the configuration is legal (00_scope.md R8, R9) -/
  legal : s.cfg.wf = true
  /-- no operation runs (10_state.md R22) -/
  idle : s.busy = false
  /-- nothing is left to perform (R39) -/
  done : s.seq = []
  /-- the decoder is IDLE again (R27) -/
  decIdle : s.dec = .idle
  /-- outside a read the pin is released (R35) -/
  released : s.pinDir = .input
  /-- the latch is never High (42_sensor_decoder.md R187) -/
  latchLow : s.pinOut = .low
  /-- the backlight is `P_BACKLIGHT_INIT` from reset on (R26) -/
  backlight : s.backlight = s.cfg.backlightInit
  /-- the cursor row is a clamped row (R25) -/
  row : s.res.cursorRow.toNat < s.cfg.numRows
  /-- the cursor is (0, 0) until INIT has completed (41_lcd_controller.md R141) -/
  cursorHome : s.lcd ≠ .ready → s.res.cursorRow = 0 ∧ s.res.cursorCol = 0
  /-- at most 40 bits are captured (R29) -/
  bits : s.res.bitCount.toNat ≤ 40
  /-- a measurement index is below 85 (R30) -/
  index : s.measIndex.toNat ≤ 84
  /-- the reading invariant (R32) -/
  reading : s.res.ReadingOk s.cfg

/-! ### Reset -/

/-- Every piece of state has the value of the reset table under the configuration `c` (10_state.md R49). -/
structure State.AtReset (c : Config) (t : State) : Prop where
  /-- the configuration is the one the engine has for life (00_scope.md R8) -/
  cfg : t.cfg = c
  busy : t.busy = false
  lcd : t.lcd = .uninit
  cursorRow : t.res.cursorRow = 0
  cursorCol : t.res.cursorCol = 0
  backlight : t.backlight = c.backlightInit
  dec : t.dec = .idle
  frame : t.res.frame = ⟨0, 0, 0, 0, 0⟩
  bitCount : t.res.bitCount = 0
  measIndex : t.measIndex = 0
  ackSeen : t.res.ackSeen = false
  hum : t.res.hum = c.sentinelHum
  temp : t.res.temp = c.sentinelTemp
  valid : t.res.valid = false
  lastErr : t.res.lastErr = .none
  ovr : t.ovr = false
  pinDir : t.pinDir = .input
  pinOut : t.pinOut = .low

/-! ### Port traces -/

/-- The events one state's trace has beyond another's. -/
def State.newEvents (s t : State) : List Event := t.log.trace.drop s.log.trace.length

/-- The events of `NIBBLE(n, rs)` when no write fails (40_nibble_transport.md R111). -/
def nibbleEvents (c : Config) (bl : Bool) (n : Nibble) (rs : Bool) : List Event :=
  [ .busWrite c.i2cAddr (xbyte c.wireMap n rs true bl) .ok, .delay c.tEnHold,
    .busWrite c.i2cAddr (xbyte c.wireMap n rs false bl) .ok, .delay c.tSettle ]

/-- The events of `XFER8(v, rs)` when no write fails: high nibble first (R113). -/
def xferEvents (c : Config) (bl : Bool) (v : Byte) (rs : Bool) : List Event :=
  nibbleEvents c bl (v.extractLsb' 4 4) rs ++ nibbleEvents c bl (v.extractLsb' 0 4) rs

/-- The four bytes of `XFER8(v, rs)`, in order. -/
def xferBytes (c : Config) (bl : Bool) (v : Byte) (rs : Bool) : List Byte :=
  [ xbyte c.wireMap (v.extractLsb' 4 4) rs true bl, xbyte c.wireMap (v.extractLsb' 4 4) rs false bl,
    xbyte c.wireMap (v.extractLsb' 0 4) rs true bl, xbyte c.wireMap (v.extractLsb' 0 4) rs false bl ]

/-- The events of INIT when no write fails (41_lcd_controller.md R141). -/
def initEvents (c : Config) (bl : Bool) : List Event :=
  [.delay c.tPowerup] ++ nibbleEvents c bl 0x3 false ++ [.delay c.tInitGap1]
    ++ nibbleEvents c bl 0x3 false ++ [.delay c.tInitGap2]
    ++ nibbleEvents c bl 0x3 false ++ nibbleEvents c bl 0x2 false
    ++ xferEvents c bl 0x28 false ++ xferEvents c bl 0x0C false
    ++ xferEvents c bl 0x01 false ++ [.delay c.tClear] ++ xferEvents c bl 0x06 false

/-- Whether an event is a `BusWrite`. -/
def Event.isWrite : Event → Bool
  | .busWrite _ _ _ => true
  | _ => false

/-- Whether an event is a `GpioSample`. -/
def Event.isSample : Event → Bool
  | .sample _ => true
  | _ => false

/-- The byte of a `BusWrite`. -/
def Event.byte : Event → Option Byte
  | .busWrite _ b _ => some b
  | _ => none

/-- The lower bound of a `Delay`, 0 for every other event. -/
def Event.least : Event → Nat
  | .delay t => t
  | _ => 0

/-! ### LCD operations as transfers -/

/-- The byte COMMAND, DATA, CLEAR and SET_CURSOR transfer, its register-select, and the results with the logical
update they make (40_nibble_transport.md R120, R122, 41_lcd_controller.md R143, R146). -/
def transferOf (s : State) : Instr → Option (Byte × Bool × Results)
  | .command v => some (v, false, s.res)
  | .data v => some (v, true, { s.res with cursorCol := s.res.cursorCol + 1 })
  | .clear => some (0x01, false, { s.res with cursorRow := 0, cursorCol := 0 })
  | .setCursor r c =>
    some (0x80 ||| (ddram (rowEff s.cfg r) c).setWidth 8, false,
      { s.res with cursorRow := rowEff s.cfg r, cursorCol := c })
  | .init => none
  | .sensorRead => none

/-- Whether an LCD operation is in the wrong `lcd_state` (60_exceptions.md R234). -/
def wrongState (s : State) : Instr → Bool
  | .init => s.lcd ≠ .uninit
  | .command _ => s.lcd ≠ .ready
  | .data _ => s.lcd ≠ .ready
  | .clear => s.lcd ≠ .ready
  | .setCursor _ _ => s.lcd ≠ .ready
  | .sensorRead => false

/-! ### The pulse train of a read (42_sensor_decoder.md R183) -/

/-- The outcome of one measurement (R181). -/
inductive Measured where
  | duration (d : Nat)
  | timeout
deriving DecidableEq, Repr

/-- The other level. -/
def Level.other : Level → Level
  | .low => .high
  | .high => .low

/-- The samples by which measurement `i` comes to an outcome under a timeout of `limit` polls (R181). -/
def samplesOf (limit i : Nat) : Measured → List Level
  | .duration d => List.replicate d (expectedLevel i) ++ [(expectedLevel i).other]
  | .timeout => List.replicate limit (expectedLevel i)

/-- The samples of the measurements from `i` on. -/
def trainSamples (limit : Nat) : Nat → List Measured → List Level
  | _, [] => []
  | i, o :: os => samplesOf limit i o ++ trainSamples limit (i + 1) os

/-- The events of a measurement: the samples, `T_POLL` between two of them (R181). -/
def measureEvents (c : Config) (ls : List Level) : List Event :=
  List.intersperse (.delay c.tPoll) (ls.map .sample)

/-- A pulse train of a whole read: outcomes up to the first timeout, or all of them, each duration below the timeout
(R183). `left` is how many measurements are still to be made. -/
def IsTrain (limit : Nat) : Nat → List Measured → Prop
  | 0, os => os = []
  | _ + 1, [] => False
  | left + 1, .duration d :: os => d < limit ∧ IsTrain limit left os
  | _ + 1, .timeout :: os => os = []

/-- The working copy a pulse train leaves, from measurement `i` on (R185). -/
def readTrain (c : Config) : Nat → List Measured → Results → Results
  | i, .duration d :: os, w => readTrain c (i + 1) os (w.measured c i d)
  | _, .timeout :: _, w => w
  | _, [], w => w

/-- Bit `k` of the bit stream a frame holds, MSB-first (20_memory.md R67). -/
def Frame.streamBit (f : Frame) (k : Nat) : Bool :=
  match k / 8 with
  | 0 => f.humInt.getLsbD (7 - k % 8)
  | 1 => f.humFrac.getLsbD (7 - k % 8)
  | 2 => f.tempInt.getLsbD (7 - k % 8)
  | 3 => f.tempFrac.getLsbD (7 - k % 8)
  | _ => f.checksum.getLsbD (7 - k % 8)

end Sys2Proof.Machine
end

