-- ==== Sys2Proof/Certificates/Slice0/Obligations.lean ====
section
/-! DEFINITION. The statements about the engine, from the numbered rules of spec/. -/

open Sys2Proof Sys2Proof.Machine

/-! ### Encoding -/

/-- The word of every operation decodes to that operation, with every operand at every value (30_encoding.md R82 to
R84, R92). -/
def Obligations.DecodeOfEncode : Prop := ∀ i : Instr, decode (encode i) = .ok i

/-- A word that decodes is the word of the operation it decodes to, so no two words spell one operation (R83, R84). -/
def Obligations.EncodeOfDecode : Prop := ∀ (w : Word) (i : Instr), decode w = .ok i → encode i = w

/-- The words that decode to nothing are exactly those R90 calls illegal: a reserved opcode, or a nonzero field that
the opcode's row wants zero. -/
def Obligations.IllegalWordsAreThoseListed : Prop :=
  ∀ w : Word,
    (∃ e, decode w = .error e) ↔
      (opcOf w = 0x00 ∨ (0x06 ≤ opcOf w ∧ opcOf w ≤ 0x0F) ∨ 0x11 ≤ opcOf w) ∨
      ((opcOf w = 0x01 ∨ opcOf w = 0x04 ∨ opcOf w = 0x10) ∧ (fieldA w ≠ 0 ∨ fieldB w ≠ 0 ∨ fieldZ w ≠ 0)) ∨
      ((opcOf w = 0x02 ∨ opcOf w = 0x03) ∧ (fieldB w ≠ 0 ∨ fieldZ w ≠ 0)) ∨
      (opcOf w = 0x05 ∧ fieldZ w ≠ 0)

/-- No word lies in two rows of the opcode map (R84). -/
def Obligations.OpcodeRowsDisjoint : Prop :=
  opRows.Pairwise fun a b => ∀ w : Word, ¬(a.covers w = true ∧ b.covers w = true)

/-- Words written out from the assembly table decode to the operations they stand for (R92, 95_test_vectors.md 2.2,
2.3). -/
def Obligations.WrittenOutWordsDecode : Prop :=
  decode 0x00000001 = .ok .init ∧ decode 0x0000FF02 = .ok (.command 0xFF) ∧ decode 0x00004803 = .ok (.data 0x48) ∧
    decode 0x00000004 = .ok .clear ∧ decode 0x00130205 = .ok (.setCursor 2 19) ∧ decode 0x00000010 = .ok .sensorRead ∧
    decodeTableWord 32 0x00FF0205 = some (.setCursor 2 255) ∧ decodeTableWord 32 0x01000005 = none

/-! ### The machine's step -/

/-- A step with an operation word as the host's next turn is the execution of the operation it decodes to, in the
state with that turn taken off the host's script and nothing else changed (10_state.md R41, R84). -/
def Obligations.StepRunsDecodedOperation : Prop :=
  ∀ (s : State) (addr : Nat) (w : Word) (ts : List Turn) (i : Instr),
    s.cfg.wf = true → s.busy = false → s.world.script = .act (.write addr 4 w) :: ts →
      regAt s.cfg addr 4 = some .op → decode w = .ok i → step s = exec i (s.withScript ts)

/-- The state `withFetchWord` makes has the given opcode-table word as its next operation (log entry 17). -/
def Obligations.FetchWordIsRunNext : Prop :=
  ∀ (s : State) (w : Nat) (i : Instr),
    s.cfg.wf = true → s.cfg.regBase % 4 = 0 → decodeTableWord 32 w = some i →
      step (s.withFetchWord 32 w) = exec i { s with busy := false, seq := [] }

/-- An accepted word that does not decode ends at once with ILLEGAL_OP: no port event, no other state change, and the
engine is idle again (60_exceptions.md R231), in every `lcd_state` (R237), whatever the host does meanwhile but a
reset. -/
def Obligations.IllegalWordEndsIllegalOp : Prop :=
  ∀ (s : State) (addr : Nat) (w : Word) (ts : List Turn) (e : IllegalWord),
    s.Accepts → s.NoReset → s.world.script = .act (.write addr 4 w) :: ts →
      regAt s.cfg addr 4 = some .op → decode w = .error e →
        ∃ t, step s = .next t ∧ t.res = { s.res with lastErr := .illegalOp } ∧ t.busy = false ∧ t.cfg = s.cfg ∧
          ((s.withScript ts).Quiet → t.ovr = s.ovr ∧ t.log.reads = s.log.reads) ∧ t.log.trace = s.log.trace ∧ t.lcd = s.lcd ∧ t.dec = s.dec ∧ t.backlight = s.backlight ∧
          t.measIndex = s.measIndex ∧ t.pinDir = s.pinDir ∧ t.pinOut = s.pinOut ∧
          t.world.busAnswers = s.world.busAnswers ∧ t.world.pinLevels = s.world.pinLevels

/-- A wire map with two signals on one bit is refused, by the step and by every operation (00_scope.md R9). -/
def Obligations.IllFormedWireMapRefused : Prop :=
  ∀ s : State, ¬ s.cfg.wireMap.positions.Nodup →
    step s = .refused .illFormedConfig ∧ ∀ i, exec i s = .refused .illFormedConfig

/-- Every accepted operation comes to an end, whatever the bus answers, whatever the pin shows and whatever the host
does meanwhile: the engine answers a state in which it is idle (10_state.md R22, 60_exceptions.md R239). -/
def Obligations.EveryOperationComesToAnEnd : Prop :=
  ∀ (s : State) (i : Instr), s.Accepts → ∃ t, exec i s = .next t ∧ t.busy = false ∧ t.seq = [] ∧ t.cfg = s.cfg

/-! ### The register window -/

/-- An operation word written while busy is dropped: `ovr` is set and nothing else changes (10_state.md R41), also
when the engine was asked to execute it. -/
def Obligations.WordWhileBusyIsDropped : Prop :=
  (∀ (s : State) (i : Instr), s.cfg.wf = true → s.busy = true → exec i s = .next (s.withOvr true)) ∧
    ∀ (s : State) (addr : Nat) (w : Word), s.busy = true → regAt s.cfg addr 4 = some .op →
      s.hostAct (.write addr 4 w) = s.withOvr true

/-- A write to STATUS clears `ovr` if its bit 12 is 1 and does nothing else, also while busy; to an idle engine it is
a whole step, and starts no operation (R43). -/
def Obligations.StatusWriteClearsOvr : Prop :=
  ∀ (s : State) (addr : Nat) (w : Word), regAt s.cfg addr 4 = some .status →
    s.hostAct (.write addr 4 w) = { s with ovr := if w.getLsbD 12 then false else s.ovr } ∧
      ∀ ts, s.cfg.wf = true → s.busy = false → s.world.script = .act (.write addr 4 w) :: ts →
        step s = .next { s.withScript ts with ovr := if w.getLsbD 12 then false else s.ovr }

/-- An access of another width than 32 bits, or at a misaligned address, has no effect when it is a write and
returns 0 when it is a read; to an idle engine it starts no operation (20_memory.md R62). Which accesses are the
window's is the model's choice, by their first address (log entry 23): a read that starts in the window and reaches past
its end is one of them. -/
def Obligations.NarrowAccessHasNoEffect : Prop :=
  ∀ (s : State) (addr width : Nat) (w : Word), width ≠ 4 ∨ addr % 4 ≠ 0 → inWindow s.cfg addr = true →
    s.hostAct (.write addr width w) = s ∧ s.hostAct (.read addr width) = s.answerRead 0 ∧
      ∀ ts, s.cfg.wf = true → s.busy = false →
        (s.world.script = .act (.write addr width w) :: ts → step s = .next (s.withScript ts)) ∧
          (s.world.script = .act (.read addr width) :: ts → step s = .next ((s.withScript ts).answerRead 0))

/-- The offsets without a register, and OP, read 0, and writes to the offsets without a register and to the
read-only registers are ignored (10_state.md R40, R41, 20_memory.md R63). -/
def Obligations.UnmappedOffsetsReadZero : Prop :=
  ∀ (s : State) (w : Word), s.cfg.regBase % 4 = 0 →
    (∀ off ∈ [0x00, 0x18, 0x1C], s.hostAct (.read (s.cfg.regBase + off) 4) = s.answerRead 0) ∧
      ∀ off ∈ [0x08, 0x0C, 0x10, 0x14, 0x18, 0x1C], s.hostAct (.write (s.cfg.regBase + off) 4 w) = s

/-- A read of a register gives the value that register shows and has no side effect (R40, R63). -/
def Obligations.RegisterReadsReturnTheirWord : Prop :=
  ∀ s : State, s.cfg.regBase % 4 = 0 →
    s.hostAct (.read (s.cfg.regBase + 0x04) 4) = s.answerRead s.statusWord ∧
      s.hostAct (.read (s.cfg.regBase + 0x08) 4) = s.answerRead s.cursorWord ∧
      s.hostAct (.read (s.cfg.regBase + 0x0C) 4) = s.answerRead s.readingWord ∧
      s.hostAct (.read (s.cfg.regBase + 0x10) 4) = s.answerRead s.frame0Word ∧
      s.hostAct (.read (s.cfg.regBase + 0x14) 4) = s.answerRead s.frame1Word

/-- The fields of STATUS (R42) with the encodings of R23, R27 and R230. -/
def Obligations.StatusFields : Prop :=
  ∀ s : State,
    s.statusWord.getLsbD 0 = s.busy ∧
      s.statusWord.extractLsb' 1 2 = (match s.lcd with | .uninit => 0 | .initializing => 1 | .ready => 2) ∧
      s.statusWord.getLsbD 3 = s.backlight ∧
      s.statusWord.extractLsb' 4 3 =
        (match s.dec with | .idle => 0 | .resetPulse => 1 | .waitAck => 2 | .readBits => 3 | .validate => 4) ∧
      s.statusWord.getLsbD 7 = false ∧
      s.statusWord.extractLsb' 8 4 =
        (match s.res.lastErr with
          | .none => 0 | .busTransferFailure => 1 | .protocolTimeout => 2
          | .checksumMismatch => 3 | .invalidState => 4 | .illegalOp => 5) ∧
      s.statusWord.getLsbD 12 = s.ovr ∧
      s.statusWord.extractLsb' 13 19 = 0

/-- The fields of CURSOR, READING, FRAME0 and FRAME1, at which offset each is read, and that writes to them are ignored
(R44 to R47). -/
def Obligations.ResultRegisterFields : Prop :=
  ∀ s : State,
    (s.cursorWord.extractLsb' 0 8 = s.res.cursorRow.setWidth 8 ∧ s.cursorWord.extractLsb' 8 8 = s.res.cursorCol ∧
      s.cursorWord.extractLsb' 16 16 = 0) ∧
    (s.readingWord.extractLsb' 0 8 = s.res.hum ∧ s.readingWord.extractLsb' 8 8 = s.res.temp ∧
      s.readingWord.getLsbD 16 = s.res.valid ∧ s.readingWord.extractLsb' 17 15 = 0) ∧
    (s.frame0Word.extractLsb' 0 8 = s.res.frame.humInt ∧ s.frame0Word.extractLsb' 8 8 = s.res.frame.humFrac ∧
      s.frame0Word.extractLsb' 16 8 = s.res.frame.tempInt ∧ s.frame0Word.extractLsb' 24 8 = s.res.frame.tempFrac) ∧
    (s.frame1Word.extractLsb' 0 8 = s.res.frame.checksum ∧ s.frame1Word.extractLsb' 8 6 = s.res.bitCount ∧
      s.frame1Word.extractLsb' 14 2 = 0 ∧ s.frame1Word.getLsbD 16 = s.res.ackSeen ∧
      s.frame1Word.extractLsb' 17 15 = 0) ∧
    (s.cfg.regBase % 4 = 0 →
      ∀ p ∈ [(0x08, s.cursorWord), (0x0C, s.readingWord), (0x10, s.frame0Word), (0x14, s.frame1Word)],
        s.hostAct (.read (s.cfg.regBase + p.1) 4) = s.answerRead p.2 ∧
          ∀ w, s.hostAct (.write (s.cfg.regBase + p.1) 4 w) = s)

/-- `ovr` is sticky: a step clears it only if the host resets or writes 1 to STATUS.OVR (10_state.md R34). -/
def Obligations.OvrClearedOnlyByHost : Prop :=
  ∀ s t : State, step s = .next t → s.ovr = true → t.ovr = false →
    Turn.act .reset ∈ s.world.script ∨
      ∃ addr w, Turn.act (.write addr 4 w) ∈ s.world.script ∧ regAt s.cfg addr 4 = some .status ∧ w.getLsbD 12 = true

/-- A step sets `ovr` only if the host writes OP (R34, R41). -/
def Obligations.OvrSetOnlyByOpWrite : Prop :=
  ∀ s t : State, step s = .next t → s.ovr = false → t.ovr = true →
    ∃ addr w, Turn.act (.write addr 4 w) ∈ s.world.script ∧ regAt s.cfg addr 4 = some .op

/-! ### Reset -/

/-- After reset every piece of state has the value of the table (10_state.md R49), under any configuration, which the
reset keeps, and from any state; the register window follows from them. A reset leaves the logs and the ports' inputs
alone, and to an idle engine whose host resets next it is a whole step (70_reset_and_hazards.md R260, R263). The model's
choices are that the ports' inputs stay (log entry 10), that the reset is no event of the port trace (log entry 25), and
that it comes as one turn of a script (log entry 5), without a duration (log entry 26). -/
def Obligations.ResetValues : Prop :=
  (∀ (s t : State) (c : Config), t = s.hardReset ∧ c = s.cfg ∨ t = State.reset ∧ c = Config.defaults →
    t.AtReset c ∧ t.statusWord = (if c.backlightInit then 8 else 0) ∧ t.cursorWord = 0 ∧
      t.readingWord = c.sentinelHum.setWidth 32 ||| c.sentinelTemp.setWidth 32 <<< 8 ∧
      t.frame0Word = 0 ∧ t.frame1Word = 0) ∧
  (∀ s : State, s.hardReset.log = s.log ∧ s.hardReset.world = s.world) ∧
  ∀ (s : State) (ts : List Turn), s.cfg.wf = true → s.busy = false → s.world.script = .act .reset :: ts →
    step s = .next (s.withScript ts).hardReset

/-- A reset while an operation runs ends it at once: if the host resets after `k` commands of it and it had not ended
by itself, the events are those of the first `k` commands, nothing is committed, and every piece of state has its
reset value (70_reset_and_hazards.md R260, R261). The operation is one that `exec` has just accepted, or one that a step
finds running. The model's choices are that the host's turns come between two commands (log entry 5), that they and the
ports' inputs stay (log entry 10), that the reset itself is no event of the port trace (log entry 25), and that it has no
duration (log entry 26). -/
def Obligations.ResetEndsRunningOperation : Prop :=
  ∀ (s u : State) (o : Host.Outcome State Fault Refusal) (k : Nat) (ts : List Turn),
    (∃ i, s.Accepts ∧ u = s.started i ∧ o = exec i s) ∨ (s.cfg.wf = true ∧ s.busy = true ∧ u = s ∧ o = step s) →
      s.world.script = List.replicate k .pass ++ .act .reset :: ts →
        (u.hostless.run k).busy = true → (u.hostless.run k).seq ≠ [] →
          ∃ t, o = .next t ∧ t.AtReset s.cfg ∧ t.seq = [] ∧ t.log.trace = (u.hostless.run k).log.trace ∧
            t.world.script = ts

/-- The invariant holds after reset, under every legal configuration (R49, R260). -/
def Obligations.ResetMeetsInvariant : Prop :=
  State.reset.Inv ∧ ∀ s : State, s.cfg.wf = true → s.hardReset.Inv

/-! ### Errors -/

/-- An LCD operation in the wrong `lcd_state` ends with INVALID_STATE, without a port event and without any other
change (60_exceptions.md R234). -/
def Obligations.WrongStateTurnedAway : Prop :=
  ∀ (s : State) (i : Instr), s.Accepts → s.NoReset → wrongState s i = true →
    ∃ t, exec i s = .next t ∧ t.res = { s.res with lastErr := .invalidState } ∧ t.busy = false ∧ t.cfg = s.cfg ∧
      (s.Quiet → t.ovr = s.ovr ∧ t.log.reads = s.log.reads) ∧ t.log.trace = s.log.trace ∧ t.lcd = s.lcd ∧ t.dec = s.dec ∧ t.backlight = s.backlight ∧
      t.measIndex = s.measIndex ∧ t.pinDir = s.pinDir ∧ t.pinOut = s.pinOut ∧
      t.world.busAnswers = s.world.busAnswers ∧ t.world.pinLevels = s.world.pinLevels

/-- The first failing write of COMMAND, DATA, CLEAR or SET_CURSOR ends it: the events up to that write, none after it
(not even the wait), no retry, the logical update committed, and BUS_TRANSFER_FAILURE (40_nibble_transport.md R114,
R115). The bytes that CLEAR and SET_CURSOR transfer, 0x01 and `0x80 OR (base + column) mod 128` (41_lcd_controller.md
R143, R146), are the spec's from general knowledge (R89, R145; PRESUMED, log entry 22). -/
def Obligations.TransferStopsAtFailedWrite : Prop :=
  ∀ (s : State) (i : Instr) (v : Byte) (rs : Bool) (w : Results) (n : Nat) (rest : List BusAnswer),
    s.Accepts → s.NoReset → s.lcd = .ready → transferOf s i = some (v, rs, w) → n < 4 →
      s.world.busAnswers = List.replicate n .ok ++ .err :: rest →
        ∃ t, exec i s = .next t ∧ t.res = { w with lastErr := .busTransferFailure } ∧ t.busy = false ∧ t.lcd = .ready ∧
          t.log.trace = s.log.trace ++ (xferEvents s.cfg s.backlight v rs).take (2 * n)
            ++ [.busWrite s.cfg.i2cAddr ((xferBytes s.cfg s.backlight v rs).getD n 0) .err] ∧
          t.world.busAnswers = rest

/-- A failing write of INIT, whichever of the 24 it is, ends it with BUS_TRANSFER_FAILURE and leaves `lcd_state`
INITIALIZING; the writes before it and the failing one are all that was attempted (41_lcd_controller.md R141). -/
def Obligations.InitStopsAtFailedWrite : Prop :=
  ∀ (s : State) (n : Nat) (rest : List BusAnswer),
    s.Accepts → s.NoReset → s.lcd = .uninit → n < 24 → s.world.busAnswers = List.replicate n .ok ++ .err :: rest →
      ∃ t, exec .init s = .next t ∧ t.lcd = .initializing ∧ t.busy = false ∧
        t.res = { s.res with lastErr := .busTransferFailure } ∧
        t.log.trace.filterMap Event.byte =
          s.log.trace.filterMap Event.byte ++ ((initEvents s.cfg s.backlight).filterMap Event.byte).take (n + 1) ∧
        t.log.trace.getLast? = some (.busWrite s.cfg.i2cAddr
          (((initEvents s.cfg s.backlight).filterMap Event.byte).getD n 0) .err) ∧
        t.world.busAnswers = rest

/-! ### What the operations do -/

/-- COMMAND sends its byte with RS = 0 and leaves the cursor (40_nibble_transport.md R120). -/
def Obligations.CommandSendsByte : Prop :=
  ∀ (s : State) (v : Byte) (rest : List BusAnswer),
    s.Accepts → s.NoReset → s.lcd = .ready → s.world.busAnswers = List.replicate 4 .ok ++ rest →
      ∃ t, exec (.command v) s = .next t ∧ t.res = { s.res with lastErr := .none } ∧ t.busy = false ∧
        t.lcd = .ready ∧ t.log.trace = s.log.trace ++ xferEvents s.cfg s.backlight v false ∧
        t.world.busAnswers = rest

/-- DATA sends its byte with RS = 1 and advances the column mod 256 (R122). -/
def Obligations.DataSendsCharacter : Prop :=
  ∀ (s : State) (v : Byte) (rest : List BusAnswer),
    s.Accepts → s.NoReset → s.lcd = .ready → s.world.busAnswers = List.replicate 4 .ok ++ rest →
      ∃ t, exec (.data v) s = .next t ∧
        t.res = { s.res with cursorCol := BitVec.ofNat 8 ((s.res.cursorCol.toNat + 1) % 256), lastErr := .none } ∧
        t.busy = false ∧ t.lcd = .ready ∧ t.log.trace = s.log.trace ++ xferEvents s.cfg s.backlight v true ∧
        t.world.busAnswers = rest

/-- CLEAR sends the clear command, waits `T_CLEAR` and leaves the cursor at (0, 0) (41_lcd_controller.md R143). The
command byte 0x01 is the spec's from general knowledge (30_encoding.md R89). -/
def Obligations.ClearSendsCommandAndHomesCursor : Prop :=
  ∀ (s : State) (rest : List BusAnswer),
    s.Accepts → s.NoReset → s.lcd = .ready → s.world.busAnswers = List.replicate 4 .ok ++ rest →
      ∃ t, exec .clear s = .next t ∧ t.res = { s.res with cursorRow := 0, cursorCol := 0, lastErr := .none } ∧
        t.busy = false ∧ t.lcd = .ready ∧
        t.log.trace = s.log.trace ++ xferEvents s.cfg s.backlight 0x01 false ++ [.delay s.cfg.tClear] ∧
        t.world.busAnswers = rest

/-- SET_CURSOR makes the clamped row and the column the cursor and sends the command `0x80 OR (base + column) mod 128`
(R146). The reduction mod 128 is the spec's from general knowledge (R145). -/
def Obligations.SetCursorSendsAddress : Prop :=
  ∀ (s : State) (r c : Byte) (rest : List BusAnswer) (e : Nat),
    s.Accepts → s.NoReset → s.lcd = .ready → s.world.busAnswers = List.replicate 4 .ok ++ rest →
      e = min r.toNat (s.cfg.numRows - 1) →
        ∃ t, exec (.setCursor r c) s = .next t ∧
          t.res = { s.res with cursorRow := BitVec.ofNat 2 e, cursorCol := c, lastErr := .none } ∧
          t.busy = false ∧ t.lcd = .ready ∧
          t.log.trace = s.log.trace
            ++ xferEvents s.cfg s.backlight
                (BitVec.ofNat 8 (128 + ([0x00, 0x40, 0x14, 0x54].getD e 0 + c.toNat) % 128)) false ∧
          t.world.busAnswers = rest

/-- INIT performs the initialisation sequence and reaches READY (R141). The command bytes are the spec's from general
knowledge (R89). -/
def Obligations.InitPerformsSequence : Prop :=
  ∀ (s : State) (rest : List BusAnswer),
    s.Accepts → s.NoReset → s.lcd = .uninit → s.world.busAnswers = List.replicate 24 .ok ++ rest →
      ∃ t, exec .init s = .next t ∧ t.lcd = .ready ∧ t.res = { s.res with lastErr := .none } ∧ t.busy = false ∧
        t.log.trace = s.log.trace ++ initEvents s.cfg s.backlight ∧ t.world.busAnswers = rest

/-- SENSOR_READ completes in every `lcd_state`, whatever the pin shows, and its outcome follows from the bits it
captured alone: valid with the integer bytes as reading exactly when 40 bits came with a matching checksum, otherwise
invalid with the sentinels; fewer than 40 bits give PROTOCOL_TIMEOUT whatever the checksum arithmetic gives, 40 bits
with another checksum CHECKSUM_MISMATCH (42_sensor_decoder.md R193, R194). -/
def Obligations.SensorReadOutcome : Prop :=
  ∀ s : State, s.Accepts → s.NoReset →
    ∃ t, exec .sensorRead s = .next t ∧ t.busy = false ∧ t.dec = .idle ∧ t.pinDir = .input ∧ t.pinOut = .low ∧
      t.res.bitCount.toNat ≤ 40 ∧
      (if t.res.bitCount.toNat = 40 ∧
          t.res.frame.checksum.toNat =
            (t.res.frame.humInt.toNat + t.res.frame.humFrac.toNat + t.res.frame.tempInt.toNat
              + t.res.frame.tempFrac.toNat) % 256 then
        t.res.valid = true ∧ t.res.hum = t.res.frame.humInt ∧ t.res.temp = t.res.frame.tempInt ∧ t.res.lastErr = .none
      else
        t.res.valid = false ∧ t.res.hum = s.cfg.sentinelHum ∧ t.res.temp = s.cfg.sentinelTemp ∧
          t.res.lastErr = if t.res.bitCount.toNat < 40 then .protocolTimeout else .checksumMismatch)

/-! ### Frames -/

/-- COMMAND, DATA, CLEAR and SET_CURSOR change nothing but the cursor and `last_err` of the state: COMMAND no cursor,
DATA no row; and their port events are bus writes and waits (R120, R122, R143, R146). `ovr` and the host's reads
change only by what the host itself does meanwhile. -/
def Obligations.TransferFrame : Prop :=
  ∀ (s t : State) (i : Instr), transferOf s i ≠ none → s.NoReset → exec i s = .next t →
    t.cfg = s.cfg ∧ t.lcd = s.lcd ∧ t.backlight = s.backlight ∧ t.dec = s.dec ∧ t.measIndex = s.measIndex ∧
      t.pinDir = s.pinDir ∧ t.pinOut = s.pinOut ∧ t.world.pinLevels = s.world.pinLevels ∧
      t.res = { s.res with cursorRow := t.res.cursorRow, cursorCol := t.res.cursorCol, lastErr := t.res.lastErr } ∧
      (∀ v, i = .command v → t.res.cursorRow = s.res.cursorRow ∧ t.res.cursorCol = s.res.cursorCol) ∧
      (∀ v, i = .data v → t.res.cursorRow = s.res.cursorRow) ∧
      (s.busy = false → s.Quiet → t.ovr = s.ovr ∧ t.log.reads = s.log.reads) ∧
      ∀ e ∈ s.newEvents t, e.isWrite = true ∨ ∃ d, e = .delay d

/-- INIT changes nothing but `lcd_state` and `last_err` of the state; its port events are bus writes and waits
(41_lcd_controller.md R141). -/
def Obligations.InitFrame : Prop :=
  ∀ s t : State, s.NoReset → exec .init s = .next t →
    t.cfg = s.cfg ∧ t.backlight = s.backlight ∧ t.dec = s.dec ∧ t.measIndex = s.measIndex ∧ t.pinDir = s.pinDir ∧
      t.pinOut = s.pinOut ∧ t.world.pinLevels = s.world.pinLevels ∧
      t.res = { s.res with lastErr := t.res.lastErr } ∧
      (s.busy = false → s.Quiet → t.ovr = s.ovr ∧ t.log.reads = s.log.reads) ∧
      ∀ e ∈ s.newEvents t, e.isWrite = true ∨ ∃ d, e = .delay d

/-- SENSOR_READ changes no LCD state and performs no bus write (42_sensor_decoder.md R185). -/
def Obligations.SensorReadFrame : Prop :=
  ∀ s t : State, s.NoReset → exec .sensorRead s = .next t →
    t.cfg = s.cfg ∧ t.lcd = s.lcd ∧ t.backlight = s.backlight ∧ t.res.cursorRow = s.res.cursorRow ∧
      t.res.cursorCol = s.res.cursorCol ∧ t.world.busAnswers = s.world.busAnswers ∧
      (s.busy = false → s.Quiet → t.ovr = s.ovr ∧ t.log.reads = s.log.reads) ∧
      ∀ e ∈ s.newEvents t, e.isWrite = false

/-- Only INIT moves `lcd_state`: from UNINIT to READY when no write fails and to INITIALIZING, where it stays until
reset, when one does (10_state.md R23). -/
def Obligations.OnlyInitMovesLcdState : Prop :=
  (∀ (s t : State) (i : Instr), i ≠ .init → s.NoReset → exec i s = .next t → t.lcd = s.lcd) ∧
    ∀ s t : State, s.Accepts → s.NoReset → exec .init s = .next t →
      if s.lcd = .uninit then
        t.lcd = .ready ∧ t.res.lastErr = .none ∨ t.lcd = .initializing ∧ t.res.lastErr = .busTransferFailure
      else t.lcd = s.lcd ∧ t.res.lastErr = .invalidState

/-! ### The wire -/

/-- In an expander byte every signal stands at the position the wire map gives it, and R/W is 0 (30_encoding.md R85,
R86). -/
def Obligations.ExpanderByteSignals : Prop :=
  ∀ (m : WireMap) (n : Nibble) (rs en bl : Bool), m.wf = true →
    (xbyte m n rs en bl).getLsbD m.rs = rs ∧ (xbyte m n rs en bl).getLsbD m.rw = false ∧
      (xbyte m n rs en bl).getLsbD m.en = en ∧ (xbyte m n rs en bl).getLsbD m.bl = bl ∧
      (xbyte m n rs en bl).getLsbD m.d4 = n.getLsbD 0 ∧ (xbyte m n rs en bl).getLsbD m.d5 = n.getLsbD 1 ∧
      (xbyte m n rs en bl).getLsbD m.d6 = n.getLsbD 2 ∧ (xbyte m n rs en bl).getLsbD m.d7 = n.getLsbD 3

/-- The two bytes of a NIBBLE differ in the EN signal and nowhere else (40_nibble_transport.md R112). -/
def Obligations.NibbleBytesDifferInEnable : Prop :=
  ∀ (m : WireMap) (n : Nibble) (rs bl : Bool) (p : Fin 8), m.wf = true →
    ((xbyte m n rs true bl).getLsbD p ≠ (xbyte m n rs false bl).getLsbD p ↔ p = m.en)

/-- Under the default map the expander byte is `(n << 4) | (bl << 3) | (en << 2) | rs` (30_encoding.md R87). -/
def Obligations.StandardMapByte : Prop :=
  ∀ (n : Nibble) (rs en bl : Bool),
    xbyte WireMap.standard n rs en bl =
      n.setWidth 8 <<< 4 ||| (BitVec.ofBool bl).setWidth 8 <<< 3 ||| (BitVec.ofBool en).setWidth 8 <<< 2
        ||| (BitVec.ofBool rs).setWidth 8

/-- The nibbles of a byte are `c & 0xF0` and `(c << 4) & 0xF0` on the data lines of the default map, and a receiver
that joins them has the byte again (R88, 95_test_vectors.md E1). -/
def Obligations.NibblesRebuildByte : Prop :=
  ∀ v : Byte,
    (hiNibble v).setWidth 8 <<< 4 = v &&& 0xF0 ∧ (loNibble v).setWidth 8 <<< 4 = (v <<< 4) &&& 0xF0 ∧
      (hiNibble v).setWidth 8 <<< 4 ||| (loNibble v).setWidth 8 = v

/-- A requested row clamps to the last supported row, and a row past it behaves as that row does
(41_lcd_controller.md R144). -/
def Obligations.RowsClamp : Prop :=
  (∀ (c : Config) (r : Byte), c.wf = true → (rowEff c r).toNat = min r.toNat (c.numRows - 1)) ∧
    ∀ (s : State) (r col : Byte), s.cfg.wf = true → s.cfg.numRows - 1 ≤ r.toNat →
      exec (.setCursor r col) s = exec (.setCursor (BitVec.ofNat 8 (s.cfg.numRows - 1)) col) s

/-- SET_CURSOR does not depend on the cursor before it: port trace and resulting cursor are the same from any other
cursor, whatever the bus answers (R147). -/
def Obligations.SetCursorForgetsCursor : Prop :=
  ∀ (s t t' : State) (r c : Byte) (row : BitVec 2) (col : Byte),
    s.Accepts → s.NoReset → s.lcd = .ready → exec (.setCursor r c) s = .next t →
      exec (.setCursor r c) { s with res := { s.res with cursorRow := row, cursorCol := col } } = .next t' →
        t'.log.trace = t.log.trace ∧ t'.res.cursorRow = t.res.cursorRow ∧ t'.res.cursorCol = t.res.cursorCol

/-- The reference trace of INIT, `initEvents`, which InitPerformsSequence says INIT performs: under the default
configuration it holds 24 byte writes as listed and 28 waits, its minimum waits add up to 46812 microseconds, and with
the backlight off every byte is 0x08 less (R142, 70_reset_and_hazards.md R279). The command bytes in it are the spec's
from general knowledge (R89; PRESUMED, log entry 22). -/
def Obligations.InitDefaultTrace : Prop :=
  (initEvents Config.defaults true).filterMap Event.byte =
      [0x3C, 0x38, 0x3C, 0x38, 0x3C, 0x38, 0x2C, 0x28, 0x2C, 0x28, 0x8C, 0x88, 0x0C, 0x08, 0xCC, 0xC8,
        0x0C, 0x08, 0x1C, 0x18, 0x0C, 0x08, 0x6C, 0x68] ∧
    (initEvents Config.defaults false).filterMap Event.byte =
      ((initEvents Config.defaults true).filterMap Event.byte).map (· - 0x08) ∧
    (initEvents Config.defaults true).length = 24 + 28 ∧
    ((initEvents Config.defaults true).map Event.least).sum = 46812

/-- Every byte a step writes to the bus goes to `P_I2C_ADDR`, has R/W = 0 and carries the backlight (20_memory.md R60,
30_encoding.md R86, 40_nibble_transport.md R110). -/
def Obligations.EveryBusByteCarriesBacklight : Prop :=
  ∀ s t : State, s.Inv → step s = .next t → ∀ a b r, Event.busWrite a b r ∈ s.newEvents t →
    a = s.cfg.i2cAddr ∧ b.getLsbD s.cfg.wireMap.rw = false ∧ b.getLsbD s.cfg.wireMap.bl = s.backlight

/-! ### The sensor decoder -/

/-- A measurement ends with `Duration(d)` after `d` samples at the expected level and one at the other, and with
`Timeout` after `T_MEAS_TIMEOUT` samples at the expected level, with `T_POLL` between two samples and nothing after
the last; a timeout skips every later measurement (42_sensor_decoder.md R181, R185). -/
def Obligations.MeasureOutcomes : Prop :=
  ∀ (s : State) (i : Nat) (cs : List Cmd) (rest : List Level), s.cfg.wf = true → s.NoReset → s.seq = .poll i 0 :: cs →
    (∀ d, d < s.cfg.tMeasTimeout → s.world.pinLevels = samplesOf s.cfg.tMeasTimeout i (.duration d) ++ rest →
      (s.run (2 * d + 1)).seq = cs ∧ (s.run (2 * d + 1)).work = s.work.measured s.cfg i d ∧
        (s.run (2 * d + 1)).world.pinLevels = rest ∧
        (s.run (2 * d + 1)).log.trace =
          s.log.trace ++ measureEvents s.cfg (samplesOf s.cfg.tMeasTimeout i (.duration d))) ∧
    (s.world.pinLevels = samplesOf s.cfg.tMeasTimeout i .timeout ++ rest →
      (s.run (2 * s.cfg.tMeasTimeout - 1)).seq = cs.dropWhile Cmd.isPoll ∧
        (s.run (2 * s.cfg.tMeasTimeout - 1)).work = s.work ∧
        (s.run (2 * s.cfg.tMeasTimeout - 1)).world.pinLevels = rest ∧
        (s.run (2 * s.cfg.tMeasTimeout - 1)).log.trace =
          s.log.trace ++ measureEvents s.cfg (samplesOf s.cfg.tMeasTimeout i .timeout))

/-- The outcome list of a read may stand for its samples: a read whose pin shows the acknowledge sample and then the
samples of a pulse train has the result the pulse train gives, and uses up exactly those samples (R183, R185). -/
def Obligations.ReadFollowsPulseTrain : Prop :=
  ∀ (s : State) (ack : Level) (os : List Measured) (rest : List Level),
    s.Accepts → s.NoReset → IsTrain s.cfg.tMeasTimeout 85 os →
      s.world.pinLevels = ack :: trainSamples s.cfg.tMeasTimeout 0 os ++ rest →
        ∃ t, exec .sensorRead s = .next t ∧
          t.res = (readTrain s.cfg 0 os { s.res.cleared with ackSeen := decide (ack = .low) }).validated s.cfg ∧
          t.world.pinLevels = rest

/-- A complete train spells the frame its high pulses encode: bit `k` is 1 exactly when measurement `4 + 2k` is longer
than the threshold, first bit in bit 7 of `frame[0]` (20_memory.md R67, R184, R191, R192). -/
def Obligations.CompleteTrainSpellsFrame : Prop :=
  ∀ (c : Config) (w : Results) (f : Frame) (d : Nat → Nat), c.wf = true → w.bitCount = 0 →
    (∀ k < 40, f.streamBit k = decide (c.tBitThreshold < d (4 + 2 * k))) →
      (readTrain c 0 ((List.range 85).map fun i => .duration (d i)) w).frame = f ∧
        (readTrain c 0 ((List.range 85).map fun i => .duration (d i)) w).bitCount = 40

/-- A timeout at measurement `m` leaves the bits of the high pulses before it: none for `m` up to 4, `k` for
`m = 4 + 2k`, all 40 for 83 and 84 (R185). -/
def Obligations.BitsBeforeTimeout : Prop :=
  ∀ (c : Config) (w : Results) (d : Nat → Nat) (m : Nat), c.wf = true → w.bitCount = 0 → m < 85 →
    (readTrain c 0 ((List.range m).map (fun i => .duration (d i)) ++ [.timeout]) w).bitCount.toNat = (m - 3) / 2

/-- A line that stays High: no acknowledgement, a timeout at measurement 0, no bit, an invalid reading and
PROTOCOL_TIMEOUT, after one and then `T_MEAS_TIMEOUT` samples (R189, R199). -/
def Obligations.SilentSensorTimesOut : Prop :=
  ∀ (s : State) (rest : List Level), s.Accepts → s.NoReset →
    s.world.pinLevels = List.replicate (1 + s.cfg.tMeasTimeout) .high ++ rest →
      ∃ t, exec .sensorRead s = .next t ∧ t.res.ackSeen = false ∧ t.res.bitCount = 0 ∧
        t.res.frame = ⟨0, 0, 0, 0, 0⟩ ∧ t.res.valid = false ∧ t.res.hum = s.cfg.sentinelHum ∧
        t.res.temp = s.cfg.sentinelTemp ∧ t.res.lastErr = .protocolTimeout ∧ t.world.pinLevels = rest ∧
        t.log.trace = s.log.trace
          ++ [.setDir .output, .write .low, .delay s.cfg.tResetLow, .setDir .input, .delay s.cfg.tAckWait, .sample .high]
          ++ measureEvents s.cfg (List.replicate s.cfg.tMeasTimeout .high) ++ [.setDir .input]

/-- The port trace of every read: the reset pulse, one acknowledge sample, which alone sets `ack_seen`, samples with
`T_POLL` waits, and the release of the pin as last event (42_sensor_decoder.md R185, R187, R188, R195). -/
def Obligations.ReadTraceShape : Prop :=
  ∀ s t : State, s.Accepts → s.NoReset → exec .sensorRead s = .next t →
    ∃ (ack : Level) (polls : List Event),
      t.log.trace = s.log.trace
        ++ [.setDir .output, .write .low, .delay s.cfg.tResetLow, .setDir .input, .delay s.cfg.tAckWait, .sample ack]
        ++ polls ++ [.setDir .input] ∧
      t.res.ackSeen = decide (ack = .low) ∧ ∀ e ∈ polls, e.isSample = true ∨ e = .delay s.cfg.tPoll

/-- The phases of a read (10_state.md R27, 42_sensor_decoder.md R185, R186): `dec_state` takes the values RESET_PULSE,
WAIT_ACK, READ_BITS and VALIDATE in that order, each at its point among the port events, and is IDLE when the operation
completes. RESET_PULSE comes before the first event, WAIT_ACK after the wait for the acknowledgement, READ_BITS after
its sample, VALIDATE after the last measurement. The moves counted are the model's commands (log entry 5): `m` leads to
VALIDATE, `n` is the last. -/
def Obligations.ReadPhases : Prop :=
  ∀ s : State, s.Accepts → s.NoReset →
    ∃ (m n : Nat) (ack : Level), 11 < m ∧ m < n ∧ exec .sensorRead s = .next ((s.started .sensorRead).run n) ∧
      (∀ k ≤ n, ((s.started .sensorRead).run k).dec =
        if k = 0 then s.dec else if k < 8 then .resetPulse else if k < 10 then .waitAck
        else if k < m then .readBits else if k < n then .validate else .idle) ∧
      ((s.started .sensorRead).run 1).log.trace = s.log.trace ∧
      (∀ k ∈ [7, 8], ((s.started .sensorRead).run k).log.trace = s.log.trace
        ++ [.setDir .output, .write .low, .delay s.cfg.tResetLow, .setDir .input, .delay s.cfg.tAckWait]) ∧
      (∀ k ∈ [9, 10], ((s.started .sensorRead).run k).log.trace =
        ((s.started .sensorRead).run 8).log.trace ++ [.sample ack]) ∧
      ((s.started .sensorRead).run n).log.trace = ((s.started .sensorRead).run m).log.trace ++ [.setDir .input]

/-- A read takes at most one acknowledge sample and `T_MEAS_TIMEOUT` samples for each of 85 measurements, whatever the
pin shows and the host does (R197). -/
def Obligations.ReadSamplesBounded : Prop :=
  ∀ s t : State, s.Accepts → exec .sensorRead s = .next t →
    ((s.newEvents t).filter Event.isSample).length ≤ 1 + 85 * s.cfg.tMeasTimeout

/-! ### Commit, ordering, and the host -/

/-- An accepted operation is busy from its acceptance until its last move, with which its results are committed
(10_state.md R22, R41): its acceptance makes the engine busy and changes nothing else but INIT's `lcd_state`, the
working copy and the commands to come, and `exec` answers the state after `n` moves, before each of which the engine is
busy and with the last of which it is idle. The moves are the model's: the host's turns, then one command (log entry
5). -/
def Obligations.BusyUntilLastMove : Prop :=
  ∀ (s : State) (i : Instr), s.Accepts → s.NoReset →
    s.started i =
        { s with
          busy := true
          lcd := if i = .init ∧ s.lcd = .uninit then .initializing else s.lcd
          work := (s.started i).work
          seq := (s.started i).seq } ∧
      ∃ n, 0 < n ∧ exec i s = .next ((s.started i).run n) ∧ ((s.started i).run n).busy = false ∧
        ∀ k < n, ((s.started i).run k).busy = true ∧ (s.started i).run (k + 1) = ((s.started i).run k).tick

/-- While an operation runs its results are not visible: a move that leaves the engine busy leaves the committed
results, and with them CURSOR, READING, FRAME0 and FRAME1, as they were (10_state.md R48, 70_reset_and_hazards.md
R273). -/
def Obligations.ResultsStayUntilCompletion : Prop :=
  ∀ s : State, s.busy = true → s.tick.busy = true →
    s.tick.res = s.res ∧ s.tick.backlight = s.backlight ∧ s.tick.cursorWord = s.cursorWord ∧
      s.tick.readingWord = s.readingWord ∧ s.tick.frame0Word = s.frame0Word ∧ s.tick.frame1Word = s.frame1Word

/-- What the host does to the window while an operation runs does not change the operation: without a reset among the
host's turns, everything but `ovr`, the answered reads and the script comes out as it does with a silent host
(R41, R43, 20_memory.md R63, R75). -/
def Obligations.HostDoesNotDisturbOperation : Prop :=
  ∀ (s t : State) (i : Instr), s.Accepts → s.NoReset → exec i s = .next t → exec i s.hostless = .next t.hostless

/-- A step only adds to the port trace, to the delays and to the answered reads (00_scope.md R12, 20_memory.md R70,
R71). -/
def Obligations.LogsOnlyGrow : Prop :=
  ∀ s t : State, step s = .next t →
    s.log.trace <+: t.log.trace ∧ s.log.waits <+: t.log.waits ∧ s.log.reads <+: t.log.reads

/-- Every delay a step performs lasts at least its bound, and the delays of the trace are exactly the delays
performed, in order (R12, R13). -/
def Obligations.DelaysLastAtLeastTheirBound : Prop :=
  ∀ s t : State, step s = .next t →
    (∀ w ∈ t.log.waits.drop s.log.waits.length, w.atLeast ≤ w.actual) ∧
      (t.log.waits.drop s.log.waits.length).map (fun w => Event.delay w.atLeast) =
        (s.newEvents t).filter fun e => match e with | .delay _ => true | _ => false

/-- Every step keeps the invariant: legal configuration, idle, pin released, latch Low, backlight as configured, row
clamped, cursor at home before READY, at most 40 bits, index below 85, and the reading invariant (10_state.md R22, R25,
R26, R29, R30, R32, R35, R37). -/
def Obligations.StepKeepsInvariant : Prop := ∀ s t : State, s.Inv → step s = .next t → t.Inv

/-! ### WRITE_TEXT -/

/-- WRITE_TEXT sends every character in order with RS = 1, each one DATA, and advances the column by their number mod
256, with no wrap of the line and no clip (41_lcd_controller.md R150, R151). -/
def Obligations.WriteTextSendsEveryCharacter : Prop :=
  ∀ (cs : List Byte) (s : State) (rest : List BusAnswer),
    s.Accepts → s.NoReset → s.lcd = .ready → s.world.busAnswers = List.replicate (4 * cs.length) .ok ++ rest →
      ∃ t, writeText cs s = .next t ∧ t.busy = false ∧
        t.log.trace = s.log.trace ++ cs.flatMap (fun c => xferEvents s.cfg s.backlight c true) ∧
        t.res = { s.res with
          cursorCol := s.res.cursorCol + BitVec.ofNat 8 cs.length
          lastErr := if cs = [] then s.res.lastErr else .none } ∧
        t.world.busAnswers = rest

/-- WRITE_TEXT stops at the first character whose transfer fails; the characters after it are not sent (R150). -/
def Obligations.WriteTextStopsAtFailure : Prop :=
  ∀ (done more : List Byte) (c : Byte) (s : State) (n : Nat) (rest : List BusAnswer),
    s.Accepts → s.NoReset → s.lcd = .ready → n < 4 →
      s.world.busAnswers = List.replicate (4 * done.length + n) .ok ++ .err :: rest →
        ∃ t, writeText (done ++ c :: more) s = .next t ∧ t.res.lastErr = .busTransferFailure ∧
          t.log.trace = s.log.trace ++ done.flatMap (fun b => xferEvents s.cfg s.backlight b true)
            ++ (xferEvents s.cfg s.backlight c true).take (2 * n)
            ++ [.busWrite s.cfg.i2cAddr ((xferBytes s.cfg s.backlight c true).getD n 0) .err] ∧
          t.res.cursorCol = s.res.cursorCol + BitVec.ofNat 8 (done.length + 1) ∧ t.world.busAnswers = rest
end

