-- ==== Sys2Proof/Laws/Encoding.lean ====
section
/-! SUPPORT. The four fields of an operation word, taken apart and put together (30_encoding.md R80). -/

namespace Sys2Proof

@[simp] theorem opcOf_packOp32 (opc a b z : Byte) : opcOf (packOp32 opc a b z) = opc := by
  ext i hi
  simp [opcOf, packOp32, placeAt]
  interval_cases i <;> simp

@[simp] theorem fieldA_packOp32 (opc a b z : Byte) : fieldA (packOp32 opc a b z) = a := by
  ext i hi
  simp [fieldA, packOp32, placeAt]
  interval_cases i <;> simp

@[simp] theorem fieldB_packOp32 (opc a b z : Byte) : fieldB (packOp32 opc a b z) = b := by
  ext i hi
  simp [fieldB, packOp32, placeAt]
  interval_cases i <;> simp

@[simp] theorem fieldZ_packOp32 (opc a b z : Byte) : fieldZ (packOp32 opc a b z) = z := by
  ext i hi
  simp [fieldZ, packOp32, placeAt]
  interval_cases i <;> simp

/-- A word is made of its four fields. -/
theorem packOp32_fields (w : Word) : packOp32 (opcOf w) (fieldA w) (fieldB w) (fieldZ w) = w := by
  ext i hi
  simp [opcOf, fieldA, fieldB, fieldZ, packOp32, placeAt]
  interval_cases i <;> simp

/-- Two words with the same four fields are the same word. -/
theorem word_eq_of_fields {w w' : Word} (ho : opcOf w = opcOf w') (ha : fieldA w = fieldA w')
    (hb : fieldB w = fieldB w') (hz : fieldZ w = fieldZ w') : w = w' := by
  rw [← packOp32_fields w, ← packOp32_fields w', ho, ha, hb, hz]

/-- Laying a word out as bytes and reading it back gives the word (20_memory.md R61). -/
theorem wordOfBytes_bytesOfWord (w : Word) : wordOfBytes (bytesOfWord w) = some w := by
  simp [wordOfBytes, bytesOfWord, packOp32_fields]

/-- A table word of 32 bits decodes as the word it is. -/
theorem decodeTableWord_eq (w : Nat) : decodeTableWord 32 w = (decode (tableWord 32 w)).toOption := by
  simp [decodeTableWord, decodeBytes, wordOfBytes_bytesOfWord]

end Sys2Proof
end

