-- ==== Sys2Proof/Laws/State.lean ====
section
/-! SUPPORT. What each single update of the state does to each field, one lemma a pair. -/

namespace Sys2Proof.Machine

variable (s : State)

@[simp] theorem State.withLcd_cfg (l : LcdState) : (s.withLcd l).cfg = s.cfg := rfl
@[simp] theorem State.withLcd_busy (l : LcdState) : (s.withLcd l).busy = s.busy := rfl
@[simp] theorem State.withLcd_lcd (l : LcdState) : (s.withLcd l).lcd = l := rfl
@[simp] theorem State.withLcd_backlight (l : LcdState) : (s.withLcd l).backlight = s.backlight := rfl
@[simp] theorem State.withLcd_dec (l : LcdState) : (s.withLcd l).dec = s.dec := rfl
@[simp] theorem State.withLcd_measIndex (l : LcdState) : (s.withLcd l).measIndex = s.measIndex := rfl
@[simp] theorem State.withLcd_ovr (l : LcdState) : (s.withLcd l).ovr = s.ovr := rfl
@[simp] theorem State.withLcd_pinDir (l : LcdState) : (s.withLcd l).pinDir = s.pinDir := rfl
@[simp] theorem State.withLcd_pinOut (l : LcdState) : (s.withLcd l).pinOut = s.pinOut := rfl
@[simp] theorem State.withLcd_res (l : LcdState) : (s.withLcd l).res = s.res := rfl
@[simp] theorem State.withLcd_work (l : LcdState) : (s.withLcd l).work = s.work := rfl
@[simp] theorem State.withLcd_seq (l : LcdState) : (s.withLcd l).seq = s.seq := rfl
@[simp] theorem State.withLcd_world (l : LcdState) : (s.withLcd l).world = s.world := rfl
@[simp] theorem State.withLcd_log (l : LcdState) : (s.withLcd l).log = s.log := rfl

@[simp] theorem State.withDec_cfg (d : DecState) : (s.withDec d).cfg = s.cfg := rfl
@[simp] theorem State.withDec_busy (d : DecState) : (s.withDec d).busy = s.busy := rfl
@[simp] theorem State.withDec_lcd (d : DecState) : (s.withDec d).lcd = s.lcd := rfl
@[simp] theorem State.withDec_backlight (d : DecState) : (s.withDec d).backlight = s.backlight := rfl
@[simp] theorem State.withDec_dec (d : DecState) : (s.withDec d).dec = d := rfl
@[simp] theorem State.withDec_measIndex (d : DecState) : (s.withDec d).measIndex = s.measIndex := rfl
@[simp] theorem State.withDec_ovr (d : DecState) : (s.withDec d).ovr = s.ovr := rfl
@[simp] theorem State.withDec_pinDir (d : DecState) : (s.withDec d).pinDir = s.pinDir := rfl
@[simp] theorem State.withDec_pinOut (d : DecState) : (s.withDec d).pinOut = s.pinOut := rfl
@[simp] theorem State.withDec_res (d : DecState) : (s.withDec d).res = s.res := rfl
@[simp] theorem State.withDec_work (d : DecState) : (s.withDec d).work = s.work := rfl
@[simp] theorem State.withDec_seq (d : DecState) : (s.withDec d).seq = s.seq := rfl
@[simp] theorem State.withDec_world (d : DecState) : (s.withDec d).world = s.world := rfl
@[simp] theorem State.withDec_log (d : DecState) : (s.withDec d).log = s.log := rfl

@[simp] theorem State.withMeasIndex_cfg (i : BitVec 7) : (s.withMeasIndex i).cfg = s.cfg := rfl
@[simp] theorem State.withMeasIndex_busy (i : BitVec 7) : (s.withMeasIndex i).busy = s.busy := rfl
@[simp] theorem State.withMeasIndex_lcd (i : BitVec 7) : (s.withMeasIndex i).lcd = s.lcd := rfl
@[simp] theorem State.withMeasIndex_backlight (i : BitVec 7) : (s.withMeasIndex i).backlight = s.backlight := rfl
@[simp] theorem State.withMeasIndex_dec (i : BitVec 7) : (s.withMeasIndex i).dec = s.dec := rfl
@[simp] theorem State.withMeasIndex_measIndex (i : BitVec 7) : (s.withMeasIndex i).measIndex = i := rfl
@[simp] theorem State.withMeasIndex_ovr (i : BitVec 7) : (s.withMeasIndex i).ovr = s.ovr := rfl
@[simp] theorem State.withMeasIndex_pinDir (i : BitVec 7) : (s.withMeasIndex i).pinDir = s.pinDir := rfl
@[simp] theorem State.withMeasIndex_pinOut (i : BitVec 7) : (s.withMeasIndex i).pinOut = s.pinOut := rfl
@[simp] theorem State.withMeasIndex_res (i : BitVec 7) : (s.withMeasIndex i).res = s.res := rfl
@[simp] theorem State.withMeasIndex_work (i : BitVec 7) : (s.withMeasIndex i).work = s.work := rfl
@[simp] theorem State.withMeasIndex_seq (i : BitVec 7) : (s.withMeasIndex i).seq = s.seq := rfl
@[simp] theorem State.withMeasIndex_world (i : BitVec 7) : (s.withMeasIndex i).world = s.world := rfl
@[simp] theorem State.withMeasIndex_log (i : BitVec 7) : (s.withMeasIndex i).log = s.log := rfl

@[simp] theorem State.withOvr_cfg (b : Bool) : (s.withOvr b).cfg = s.cfg := rfl
@[simp] theorem State.withOvr_busy (b : Bool) : (s.withOvr b).busy = s.busy := rfl
@[simp] theorem State.withOvr_lcd (b : Bool) : (s.withOvr b).lcd = s.lcd := rfl
@[simp] theorem State.withOvr_backlight (b : Bool) : (s.withOvr b).backlight = s.backlight := rfl
@[simp] theorem State.withOvr_dec (b : Bool) : (s.withOvr b).dec = s.dec := rfl
@[simp] theorem State.withOvr_measIndex (b : Bool) : (s.withOvr b).measIndex = s.measIndex := rfl
@[simp] theorem State.withOvr_ovr (b : Bool) : (s.withOvr b).ovr = b := rfl
@[simp] theorem State.withOvr_pinDir (b : Bool) : (s.withOvr b).pinDir = s.pinDir := rfl
@[simp] theorem State.withOvr_pinOut (b : Bool) : (s.withOvr b).pinOut = s.pinOut := rfl
@[simp] theorem State.withOvr_res (b : Bool) : (s.withOvr b).res = s.res := rfl
@[simp] theorem State.withOvr_work (b : Bool) : (s.withOvr b).work = s.work := rfl
@[simp] theorem State.withOvr_seq (b : Bool) : (s.withOvr b).seq = s.seq := rfl
@[simp] theorem State.withOvr_world (b : Bool) : (s.withOvr b).world = s.world := rfl
@[simp] theorem State.withOvr_log (b : Bool) : (s.withOvr b).log = s.log := rfl

@[simp] theorem State.withPinDir_cfg (d : PinDir) : (s.withPinDir d).cfg = s.cfg := rfl
@[simp] theorem State.withPinDir_busy (d : PinDir) : (s.withPinDir d).busy = s.busy := rfl
@[simp] theorem State.withPinDir_lcd (d : PinDir) : (s.withPinDir d).lcd = s.lcd := rfl
@[simp] theorem State.withPinDir_backlight (d : PinDir) : (s.withPinDir d).backlight = s.backlight := rfl
@[simp] theorem State.withPinDir_dec (d : PinDir) : (s.withPinDir d).dec = s.dec := rfl
@[simp] theorem State.withPinDir_measIndex (d : PinDir) : (s.withPinDir d).measIndex = s.measIndex := rfl
@[simp] theorem State.withPinDir_ovr (d : PinDir) : (s.withPinDir d).ovr = s.ovr := rfl
@[simp] theorem State.withPinDir_pinDir (d : PinDir) : (s.withPinDir d).pinDir = d := rfl
@[simp] theorem State.withPinDir_pinOut (d : PinDir) : (s.withPinDir d).pinOut = s.pinOut := rfl
@[simp] theorem State.withPinDir_res (d : PinDir) : (s.withPinDir d).res = s.res := rfl
@[simp] theorem State.withPinDir_work (d : PinDir) : (s.withPinDir d).work = s.work := rfl
@[simp] theorem State.withPinDir_seq (d : PinDir) : (s.withPinDir d).seq = s.seq := rfl
@[simp] theorem State.withPinDir_world (d : PinDir) : (s.withPinDir d).world = s.world := rfl
@[simp] theorem State.withPinDir_log (d : PinDir) : (s.withPinDir d).log = s.log := rfl

@[simp] theorem State.withPinOut_cfg (l : Level) : (s.withPinOut l).cfg = s.cfg := rfl
@[simp] theorem State.withPinOut_busy (l : Level) : (s.withPinOut l).busy = s.busy := rfl
@[simp] theorem State.withPinOut_lcd (l : Level) : (s.withPinOut l).lcd = s.lcd := rfl
@[simp] theorem State.withPinOut_backlight (l : Level) : (s.withPinOut l).backlight = s.backlight := rfl
@[simp] theorem State.withPinOut_dec (l : Level) : (s.withPinOut l).dec = s.dec := rfl
@[simp] theorem State.withPinOut_measIndex (l : Level) : (s.withPinOut l).measIndex = s.measIndex := rfl
@[simp] theorem State.withPinOut_ovr (l : Level) : (s.withPinOut l).ovr = s.ovr := rfl
@[simp] theorem State.withPinOut_pinDir (l : Level) : (s.withPinOut l).pinDir = s.pinDir := rfl
@[simp] theorem State.withPinOut_pinOut (l : Level) : (s.withPinOut l).pinOut = l := rfl
@[simp] theorem State.withPinOut_res (l : Level) : (s.withPinOut l).res = s.res := rfl
@[simp] theorem State.withPinOut_work (l : Level) : (s.withPinOut l).work = s.work := rfl
@[simp] theorem State.withPinOut_seq (l : Level) : (s.withPinOut l).seq = s.seq := rfl
@[simp] theorem State.withPinOut_world (l : Level) : (s.withPinOut l).world = s.world := rfl
@[simp] theorem State.withPinOut_log (l : Level) : (s.withPinOut l).log = s.log := rfl

@[simp] theorem State.withWork_cfg (w : Results) : (s.withWork w).cfg = s.cfg := rfl
@[simp] theorem State.withWork_busy (w : Results) : (s.withWork w).busy = s.busy := rfl
@[simp] theorem State.withWork_lcd (w : Results) : (s.withWork w).lcd = s.lcd := rfl
@[simp] theorem State.withWork_backlight (w : Results) : (s.withWork w).backlight = s.backlight := rfl
@[simp] theorem State.withWork_dec (w : Results) : (s.withWork w).dec = s.dec := rfl
@[simp] theorem State.withWork_measIndex (w : Results) : (s.withWork w).measIndex = s.measIndex := rfl
@[simp] theorem State.withWork_ovr (w : Results) : (s.withWork w).ovr = s.ovr := rfl
@[simp] theorem State.withWork_pinDir (w : Results) : (s.withWork w).pinDir = s.pinDir := rfl
@[simp] theorem State.withWork_pinOut (w : Results) : (s.withWork w).pinOut = s.pinOut := rfl
@[simp] theorem State.withWork_res (w : Results) : (s.withWork w).res = s.res := rfl
@[simp] theorem State.withWork_work (w : Results) : (s.withWork w).work = w := rfl
@[simp] theorem State.withWork_seq (w : Results) : (s.withWork w).seq = s.seq := rfl
@[simp] theorem State.withWork_world (w : Results) : (s.withWork w).world = s.world := rfl
@[simp] theorem State.withWork_log (w : Results) : (s.withWork w).log = s.log := rfl

@[simp] theorem State.withSeq_cfg (cs : List Cmd) : (s.withSeq cs).cfg = s.cfg := rfl
@[simp] theorem State.withSeq_busy (cs : List Cmd) : (s.withSeq cs).busy = s.busy := rfl
@[simp] theorem State.withSeq_lcd (cs : List Cmd) : (s.withSeq cs).lcd = s.lcd := rfl
@[simp] theorem State.withSeq_backlight (cs : List Cmd) : (s.withSeq cs).backlight = s.backlight := rfl
@[simp] theorem State.withSeq_dec (cs : List Cmd) : (s.withSeq cs).dec = s.dec := rfl
@[simp] theorem State.withSeq_measIndex (cs : List Cmd) : (s.withSeq cs).measIndex = s.measIndex := rfl
@[simp] theorem State.withSeq_ovr (cs : List Cmd) : (s.withSeq cs).ovr = s.ovr := rfl
@[simp] theorem State.withSeq_pinDir (cs : List Cmd) : (s.withSeq cs).pinDir = s.pinDir := rfl
@[simp] theorem State.withSeq_pinOut (cs : List Cmd) : (s.withSeq cs).pinOut = s.pinOut := rfl
@[simp] theorem State.withSeq_res (cs : List Cmd) : (s.withSeq cs).res = s.res := rfl
@[simp] theorem State.withSeq_work (cs : List Cmd) : (s.withSeq cs).work = s.work := rfl
@[simp] theorem State.withSeq_seq (cs : List Cmd) : (s.withSeq cs).seq = cs := rfl
@[simp] theorem State.withSeq_world (cs : List Cmd) : (s.withSeq cs).world = s.world := rfl
@[simp] theorem State.withSeq_log (cs : List Cmd) : (s.withSeq cs).log = s.log := rfl

@[simp] theorem State.withScript_cfg (ts : List Turn) : (s.withScript ts).cfg = s.cfg := rfl
@[simp] theorem State.withScript_busy (ts : List Turn) : (s.withScript ts).busy = s.busy := rfl
@[simp] theorem State.withScript_lcd (ts : List Turn) : (s.withScript ts).lcd = s.lcd := rfl
@[simp] theorem State.withScript_backlight (ts : List Turn) : (s.withScript ts).backlight = s.backlight := rfl
@[simp] theorem State.withScript_dec (ts : List Turn) : (s.withScript ts).dec = s.dec := rfl
@[simp] theorem State.withScript_measIndex (ts : List Turn) : (s.withScript ts).measIndex = s.measIndex := rfl
@[simp] theorem State.withScript_ovr (ts : List Turn) : (s.withScript ts).ovr = s.ovr := rfl
@[simp] theorem State.withScript_pinDir (ts : List Turn) : (s.withScript ts).pinDir = s.pinDir := rfl
@[simp] theorem State.withScript_pinOut (ts : List Turn) : (s.withScript ts).pinOut = s.pinOut := rfl
@[simp] theorem State.withScript_res (ts : List Turn) : (s.withScript ts).res = s.res := rfl
@[simp] theorem State.withScript_work (ts : List Turn) : (s.withScript ts).work = s.work := rfl
@[simp] theorem State.withScript_seq (ts : List Turn) : (s.withScript ts).seq = s.seq := rfl
@[simp] theorem State.withScript_world (ts : List Turn) : (s.withScript ts).world = { s.world with script := ts } := rfl
@[simp] theorem State.withScript_log (ts : List Turn) : (s.withScript ts).log = s.log := rfl

@[simp] theorem State.emit_cfg (e : Event) : (s.emit e).cfg = s.cfg := rfl
@[simp] theorem State.emit_busy (e : Event) : (s.emit e).busy = s.busy := rfl
@[simp] theorem State.emit_lcd (e : Event) : (s.emit e).lcd = s.lcd := rfl
@[simp] theorem State.emit_backlight (e : Event) : (s.emit e).backlight = s.backlight := rfl
@[simp] theorem State.emit_dec (e : Event) : (s.emit e).dec = s.dec := rfl
@[simp] theorem State.emit_measIndex (e : Event) : (s.emit e).measIndex = s.measIndex := rfl
@[simp] theorem State.emit_ovr (e : Event) : (s.emit e).ovr = s.ovr := rfl
@[simp] theorem State.emit_pinDir (e : Event) : (s.emit e).pinDir = s.pinDir := rfl
@[simp] theorem State.emit_pinOut (e : Event) : (s.emit e).pinOut = s.pinOut := rfl
@[simp] theorem State.emit_res (e : Event) : (s.emit e).res = s.res := rfl
@[simp] theorem State.emit_work (e : Event) : (s.emit e).work = s.work := rfl
@[simp] theorem State.emit_seq (e : Event) : (s.emit e).seq = s.seq := rfl
@[simp] theorem State.emit_world (e : Event) : (s.emit e).world = s.world := rfl
@[simp] theorem State.emit_log (e : Event) : (s.emit e).log = { s.log with trace := s.log.trace ++ [e] } := rfl

@[simp] theorem State.answerRead_cfg (w : Word) : (s.answerRead w).cfg = s.cfg := rfl
@[simp] theorem State.answerRead_busy (w : Word) : (s.answerRead w).busy = s.busy := rfl
@[simp] theorem State.answerRead_lcd (w : Word) : (s.answerRead w).lcd = s.lcd := rfl
@[simp] theorem State.answerRead_backlight (w : Word) : (s.answerRead w).backlight = s.backlight := rfl
@[simp] theorem State.answerRead_dec (w : Word) : (s.answerRead w).dec = s.dec := rfl
@[simp] theorem State.answerRead_measIndex (w : Word) : (s.answerRead w).measIndex = s.measIndex := rfl
@[simp] theorem State.answerRead_ovr (w : Word) : (s.answerRead w).ovr = s.ovr := rfl
@[simp] theorem State.answerRead_pinDir (w : Word) : (s.answerRead w).pinDir = s.pinDir := rfl
@[simp] theorem State.answerRead_pinOut (w : Word) : (s.answerRead w).pinOut = s.pinOut := rfl
@[simp] theorem State.answerRead_res (w : Word) : (s.answerRead w).res = s.res := rfl
@[simp] theorem State.answerRead_work (w : Word) : (s.answerRead w).work = s.work := rfl
@[simp] theorem State.answerRead_seq (w : Word) : (s.answerRead w).seq = s.seq := rfl
@[simp] theorem State.answerRead_world (w : Word) : (s.answerRead w).world = s.world := rfl
@[simp] theorem State.answerRead_log (w : Word) : (s.answerRead w).log = { s.log with reads := s.log.reads ++ [w] } := rfl

@[simp] theorem State.elapse_cfg (t : Nat) : (s.elapse t).cfg = s.cfg := rfl
@[simp] theorem State.elapse_busy (t : Nat) : (s.elapse t).busy = s.busy := rfl
@[simp] theorem State.elapse_lcd (t : Nat) : (s.elapse t).lcd = s.lcd := rfl
@[simp] theorem State.elapse_backlight (t : Nat) : (s.elapse t).backlight = s.backlight := rfl
@[simp] theorem State.elapse_dec (t : Nat) : (s.elapse t).dec = s.dec := rfl
@[simp] theorem State.elapse_measIndex (t : Nat) : (s.elapse t).measIndex = s.measIndex := rfl
@[simp] theorem State.elapse_ovr (t : Nat) : (s.elapse t).ovr = s.ovr := rfl
@[simp] theorem State.elapse_pinDir (t : Nat) : (s.elapse t).pinDir = s.pinDir := rfl
@[simp] theorem State.elapse_pinOut (t : Nat) : (s.elapse t).pinOut = s.pinOut := rfl
@[simp] theorem State.elapse_res (t : Nat) : (s.elapse t).res = s.res := rfl
@[simp] theorem State.elapse_work (t : Nat) : (s.elapse t).work = s.work := rfl
@[simp] theorem State.elapse_seq (t : Nat) : (s.elapse t).seq = s.seq := rfl
@[simp] theorem State.elapse_world (t : Nat) : (s.elapse t).world = { s.world with draws := s.world.draws + 1 } := rfl
@[simp] theorem State.elapse_log (t : Nat) : (s.elapse t).log = 
      { s.log with
        trace := s.log.trace ++ [.delay t]
        waits := s.log.waits ++ [{ atLeast := t, actual := t + Config.freeExtraDelay s.world.draws }] } := rfl

@[simp] theorem State.commit_cfg : (s.commit).cfg = s.cfg := rfl
@[simp] theorem State.commit_busy : (s.commit).busy = false := rfl
@[simp] theorem State.commit_lcd : (s.commit).lcd = s.lcd := rfl
@[simp] theorem State.commit_backlight : (s.commit).backlight = s.backlight := rfl
@[simp] theorem State.commit_dec : (s.commit).dec = s.dec := rfl
@[simp] theorem State.commit_measIndex : (s.commit).measIndex = s.measIndex := rfl
@[simp] theorem State.commit_ovr : (s.commit).ovr = s.ovr := rfl
@[simp] theorem State.commit_pinDir : (s.commit).pinDir = s.pinDir := rfl
@[simp] theorem State.commit_pinOut : (s.commit).pinOut = s.pinOut := rfl
@[simp] theorem State.commit_res : (s.commit).res = s.work := rfl
@[simp] theorem State.commit_work : (s.commit).work = s.work := rfl
@[simp] theorem State.commit_seq : (s.commit).seq = [] := rfl
@[simp] theorem State.commit_world : (s.commit).world = s.world := rfl
@[simp] theorem State.commit_log : (s.commit).log = s.log := rfl

@[simp] theorem State.raise_cfg (e : ErrCode) : (s.raise e).cfg = s.cfg := rfl
@[simp] theorem State.raise_busy (e : ErrCode) : (s.raise e).busy = false := rfl
@[simp] theorem State.raise_lcd (e : ErrCode) : (s.raise e).lcd = s.lcd := rfl
@[simp] theorem State.raise_backlight (e : ErrCode) : (s.raise e).backlight = s.backlight := rfl
@[simp] theorem State.raise_dec (e : ErrCode) : (s.raise e).dec = s.dec := rfl
@[simp] theorem State.raise_measIndex (e : ErrCode) : (s.raise e).measIndex = s.measIndex := rfl
@[simp] theorem State.raise_ovr (e : ErrCode) : (s.raise e).ovr = s.ovr := rfl
@[simp] theorem State.raise_pinDir (e : ErrCode) : (s.raise e).pinDir = s.pinDir := rfl
@[simp] theorem State.raise_pinOut (e : ErrCode) : (s.raise e).pinOut = s.pinOut := rfl
@[simp] theorem State.raise_res (e : ErrCode) : (s.raise e).res = { s.work with lastErr := e } := rfl
@[simp] theorem State.raise_work (e : ErrCode) : (s.raise e).work = { s.work with lastErr := e } := rfl
@[simp] theorem State.raise_seq (e : ErrCode) : (s.raise e).seq = [] := rfl
@[simp] theorem State.raise_world (e : ErrCode) : (s.raise e).world = s.world := rfl
@[simp] theorem State.raise_log (e : ErrCode) : (s.raise e).log = s.log := rfl

@[simp] theorem State.begin_cfg (w : Results) (cs : List Cmd) : (s.begin w cs).cfg = s.cfg := rfl
@[simp] theorem State.begin_busy (w : Results) (cs : List Cmd) : (s.begin w cs).busy = true := rfl
@[simp] theorem State.begin_lcd (w : Results) (cs : List Cmd) : (s.begin w cs).lcd = s.lcd := rfl
@[simp] theorem State.begin_backlight (w : Results) (cs : List Cmd) : (s.begin w cs).backlight = s.backlight := rfl
@[simp] theorem State.begin_dec (w : Results) (cs : List Cmd) : (s.begin w cs).dec = s.dec := rfl
@[simp] theorem State.begin_measIndex (w : Results) (cs : List Cmd) : (s.begin w cs).measIndex = s.measIndex := rfl
@[simp] theorem State.begin_ovr (w : Results) (cs : List Cmd) : (s.begin w cs).ovr = s.ovr := rfl
@[simp] theorem State.begin_pinDir (w : Results) (cs : List Cmd) : (s.begin w cs).pinDir = s.pinDir := rfl
@[simp] theorem State.begin_pinOut (w : Results) (cs : List Cmd) : (s.begin w cs).pinOut = s.pinOut := rfl
@[simp] theorem State.begin_res (w : Results) (cs : List Cmd) : (s.begin w cs).res = s.res := rfl
@[simp] theorem State.begin_work (w : Results) (cs : List Cmd) : (s.begin w cs).work = w := rfl
@[simp] theorem State.begin_seq (w : Results) (cs : List Cmd) : (s.begin w cs).seq = cs := rfl
@[simp] theorem State.begin_world (w : Results) (cs : List Cmd) : (s.begin w cs).world = s.world := rfl
@[simp] theorem State.begin_log (w : Results) (cs : List Cmd) : (s.begin w cs).log = s.log := rfl

@[simp] theorem State.hardReset_cfg : (s.hardReset).cfg = s.cfg := rfl
@[simp] theorem State.hardReset_busy : (s.hardReset).busy = false := rfl
@[simp] theorem State.hardReset_lcd : (s.hardReset).lcd = .uninit := rfl
@[simp] theorem State.hardReset_backlight : (s.hardReset).backlight = s.cfg.backlightInit := rfl
@[simp] theorem State.hardReset_dec : (s.hardReset).dec = .idle := rfl
@[simp] theorem State.hardReset_measIndex : (s.hardReset).measIndex = 0 := rfl
@[simp] theorem State.hardReset_ovr : (s.hardReset).ovr = false := rfl
@[simp] theorem State.hardReset_pinDir : (s.hardReset).pinDir = .input := rfl
@[simp] theorem State.hardReset_pinOut : (s.hardReset).pinOut = .low := rfl
@[simp] theorem State.hardReset_res : (s.hardReset).res = Results.atReset s.cfg := rfl
@[simp] theorem State.hardReset_work : (s.hardReset).work = Results.atReset s.cfg := rfl
@[simp] theorem State.hardReset_seq : (s.hardReset).seq = [] := rfl
@[simp] theorem State.hardReset_world : (s.hardReset).world = s.world := rfl
@[simp] theorem State.hardReset_log : (s.hardReset).log = s.log := rfl

@[simp] theorem State.popAnswer_cfg : s.popAnswer.cfg = s.cfg := by
  unfold State.popAnswer; split <;> rfl
@[simp] theorem State.popAnswer_busy : s.popAnswer.busy = s.busy := by
  unfold State.popAnswer; split <;> rfl
@[simp] theorem State.popAnswer_lcd : s.popAnswer.lcd = s.lcd := by
  unfold State.popAnswer; split <;> rfl
@[simp] theorem State.popAnswer_backlight : s.popAnswer.backlight = s.backlight := by
  unfold State.popAnswer; split <;> rfl
@[simp] theorem State.popAnswer_dec : s.popAnswer.dec = s.dec := by
  unfold State.popAnswer; split <;> rfl
@[simp] theorem State.popAnswer_measIndex : s.popAnswer.measIndex = s.measIndex := by
  unfold State.popAnswer; split <;> rfl
@[simp] theorem State.popAnswer_ovr : s.popAnswer.ovr = s.ovr := by
  unfold State.popAnswer; split <;> rfl
@[simp] theorem State.popAnswer_pinDir : s.popAnswer.pinDir = s.pinDir := by
  unfold State.popAnswer; split <;> rfl
@[simp] theorem State.popAnswer_pinOut : s.popAnswer.pinOut = s.pinOut := by
  unfold State.popAnswer; split <;> rfl
@[simp] theorem State.popAnswer_res : s.popAnswer.res = s.res := by
  unfold State.popAnswer; split <;> rfl
@[simp] theorem State.popAnswer_work : s.popAnswer.work = s.work := by
  unfold State.popAnswer; split <;> rfl
@[simp] theorem State.popAnswer_seq : s.popAnswer.seq = s.seq := by
  unfold State.popAnswer; split <;> rfl
@[simp] theorem State.popAnswer_log : s.popAnswer.log = s.log := by
  unfold State.popAnswer; split <;> rfl
@[simp] theorem State.popAnswer_script : s.popAnswer.world.script = s.world.script := by
  unfold State.popAnswer; split <;> rfl
@[simp] theorem State.popAnswer_pinLevels : s.popAnswer.world.pinLevels = s.world.pinLevels := by
  unfold State.popAnswer; split <;> rfl

@[simp] theorem State.popLevel_cfg : s.popLevel.cfg = s.cfg := by
  unfold State.popLevel; split <;> rfl
@[simp] theorem State.popLevel_busy : s.popLevel.busy = s.busy := by
  unfold State.popLevel; split <;> rfl
@[simp] theorem State.popLevel_lcd : s.popLevel.lcd = s.lcd := by
  unfold State.popLevel; split <;> rfl
@[simp] theorem State.popLevel_backlight : s.popLevel.backlight = s.backlight := by
  unfold State.popLevel; split <;> rfl
@[simp] theorem State.popLevel_dec : s.popLevel.dec = s.dec := by
  unfold State.popLevel; split <;> rfl
@[simp] theorem State.popLevel_measIndex : s.popLevel.measIndex = s.measIndex := by
  unfold State.popLevel; split <;> rfl
@[simp] theorem State.popLevel_ovr : s.popLevel.ovr = s.ovr := by
  unfold State.popLevel; split <;> rfl
@[simp] theorem State.popLevel_pinDir : s.popLevel.pinDir = s.pinDir := by
  unfold State.popLevel; split <;> rfl
@[simp] theorem State.popLevel_pinOut : s.popLevel.pinOut = s.pinOut := by
  unfold State.popLevel; split <;> rfl
@[simp] theorem State.popLevel_res : s.popLevel.res = s.res := by
  unfold State.popLevel; split <;> rfl
@[simp] theorem State.popLevel_work : s.popLevel.work = s.work := by
  unfold State.popLevel; split <;> rfl
@[simp] theorem State.popLevel_seq : s.popLevel.seq = s.seq := by
  unfold State.popLevel; split <;> rfl
@[simp] theorem State.popLevel_log : s.popLevel.log = s.log := by
  unfold State.popLevel; split <;> rfl
@[simp] theorem State.popLevel_script : s.popLevel.world.script = s.world.script := by
  unfold State.popLevel; split <;> rfl
@[simp] theorem State.popLevel_busAnswers : s.popLevel.world.busAnswers = s.world.busAnswers := by
  unfold State.popLevel; split <;> rfl

end Sys2Proof.Machine
end

