-- ==== Sys2Proof/Laws/Ops.lean ====
section
/-! SUPPORT. What each shared operation over the state can do, once: host turns, the sequencer's moves, runs of
transfers, and the acceptance of an operation. -/

namespace Sys2Proof.Machine

/-! ### States that agree but for the host: they agree in every field of the engine, the trace and the inputs -/

theorem cfg_of_hostless (s t : State) (h : s.hostless = t.hostless) : s.cfg = t.cfg := by
  have h2 := congrArg State.cfg h; exact h2

theorem busy_of_hostless (s t : State) (h : s.hostless = t.hostless) : s.busy = t.busy := by
  have h2 := congrArg State.busy h; exact h2

theorem lcd_of_hostless (s t : State) (h : s.hostless = t.hostless) : s.lcd = t.lcd := by
  have h2 := congrArg State.lcd h; exact h2

theorem backlight_of_hostless (s t : State) (h : s.hostless = t.hostless) : s.backlight = t.backlight := by
  have h2 := congrArg State.backlight h; exact h2

theorem dec_of_hostless (s t : State) (h : s.hostless = t.hostless) : s.dec = t.dec := by
  have h2 := congrArg State.dec h; exact h2

theorem measIndex_of_hostless (s t : State) (h : s.hostless = t.hostless) : s.measIndex = t.measIndex := by
  have h2 := congrArg State.measIndex h; exact h2

theorem pinDir_of_hostless (s t : State) (h : s.hostless = t.hostless) : s.pinDir = t.pinDir := by
  have h2 := congrArg State.pinDir h; exact h2

theorem pinOut_of_hostless (s t : State) (h : s.hostless = t.hostless) : s.pinOut = t.pinOut := by
  have h2 := congrArg State.pinOut h; exact h2

theorem res_of_hostless (s t : State) (h : s.hostless = t.hostless) : s.res = t.res := by
  have h2 := congrArg State.res h; exact h2

theorem work_of_hostless (s t : State) (h : s.hostless = t.hostless) : s.work = t.work := by
  have h2 := congrArg State.work h; exact h2

theorem seq_of_hostless (s t : State) (h : s.hostless = t.hostless) : s.seq = t.seq := by
  have h2 := congrArg State.seq h; exact h2

theorem trace_of_hostless (s t : State) (h : s.hostless = t.hostless) : s.log.trace = t.log.trace := by
  have h2 := congrArg (fun x : State => x.log.trace) h; exact h2

theorem waits_of_hostless (s t : State) (h : s.hostless = t.hostless) : s.log.waits = t.log.waits := by
  have h2 := congrArg (fun x : State => x.log.waits) h; exact h2

theorem busAnswers_of_hostless (s t : State) (h : s.hostless = t.hostless) : s.world.busAnswers = t.world.busAnswers := by
  have h2 := congrArg (fun x : State => x.world.busAnswers) h; exact h2

theorem pinLevels_of_hostless (s t : State) (h : s.hostless = t.hostless) : s.world.pinLevels = t.world.pinLevels := by
  have h2 := congrArg (fun x : State => x.world.pinLevels) h; exact h2

theorem draws_of_hostless (s t : State) (h : s.hostless = t.hostless) : s.world.draws = t.world.draws := by
  have h2 := congrArg (fun x : State => x.world.draws) h; exact h2

/-! ### The host's turns -/

/-- Without turns to come, the host does nothing before a command. -/
theorem gap_of_script_nil (s : State) (h : s.world.script = []) : s.gap = s := by
  obtain ⟨cfg, busy, lcd, bl, dec, mi, ovr, pd, po, res, work, seq, ⟨sc, ba, pl, dr⟩, log⟩ := s
  simp only at h
  subst h
  rfl

/-- An act other than a reset changes nothing but `ovr` and the answered reads. -/
theorem hostAct_hostless (s : State) (a : HostAct) (h : a ≠ .reset) : (s.hostAct a).hostless = s.hostless := by
  cases a with
  | read addr width => simp only [State.hostAct, State.hostRead]; split <;> rfl
  | write addr width w =>
    simp only [State.hostAct, State.hostWrite, State.writeStatus]
    split
    · split <;> rfl
    · split <;> rfl
    · rfl
  | reset => exact absurd rfl h

/-- An act leaves the script to come as it is. -/
theorem hostAct_script (s : State) (a : HostAct) : (s.hostAct a).world.script = s.world.script := by
  cases a with
  | read addr width => simp only [State.hostAct, State.hostRead]; split <;> rfl
  | write addr width w =>
    simp only [State.hostAct, State.hostWrite, State.writeStatus]
    split
    · split <;> rfl
    · split <;> rfl
    · rfl
  | reset => rfl

theorem withScript_hostless (s : State) (ts : List Turn) : (s.withScript ts).hostless = s.hostless := rfl

/-- Host turns without a reset change nothing but `ovr`, the answered reads and the script. -/
theorem hostTurns_hostless (ts : List Turn) :
    ∀ s : State, Turn.act .reset ∉ ts → (s.hostTurns ts).hostless = s.hostless := by
  induction ts with
  | nil => intro s _; rfl
  | cons u ts ih =>
    intro s h
    cases u with
    | pass => rfl
    | waitIdle => rfl
    | act a =>
      have ha : a ≠ .reset := fun e => h (by simp [e])
      have hts : Turn.act .reset ∉ ts := fun e => h (List.mem_cons_of_mem _ e)
      have hact := hostAct_hostless (s.withScript ts) a ha
      rw [withScript_hostless] at hact
      simp only [State.hostTurns]
      split
      · rw [ih _ hts, hact]
      · exact hact

theorem gap_hostless (s : State) (h : s.NoReset) : s.gap.hostless = s.hostless := hostTurns_hostless _ _ h

/-- The turns left after a gap are among those before it. -/
theorem hostTurns_script_subset (ts : List Turn) : ∀ s : State, (s.hostTurns ts).world.script ⊆ ts := by
  induction ts with
  | nil => intro s u hu; exact hu
  | cons u ts ih =>
    intro s
    cases u with
    | pass => exact List.subset_cons_self _ _
    | waitIdle => exact List.Subset.refl _
    | act a =>
      simp only [State.hostTurns]
      split
      · exact fun v hv => List.mem_cons_of_mem _ (ih _ hv)
      · rw [hostAct_script]; exact List.subset_cons_self _ _

/-! ### One move -/

/-- A command takes no notice of `ovr`, of the answered reads or of the host's turns. -/
theorem perform_hostless (c : Cmd) (s : State) : (s.perform c).hostless = s.hostless.perform c := by
  have pops (s : State) : s.popAnswer.hostless = s.hostless.popAnswer := by
    unfold State.popAnswer; simp only [State.hostless]; split <;> rfl
  have popl (s : State) : s.popLevel.hostless = s.hostless.popLevel := by
    unfold State.popLevel; simp only [State.hostless]; split <;> rfl
  have na : s.hostless.nextAnswer = s.nextAnswer := rfl
  have nl : s.hostless.nextLevel = s.nextLevel := rfl
  have emits (s : State) (e : Event) : (s.emit e).hostless = s.hostless.emit e := rfl
  cases c with
  | busWrite b =>
    simp only [State.perform, State.performWrite, na]
    split
    · rw [emits, pops]; rfl
    · rw [show s.hostless.popAnswer = s.popAnswer.hostless from (pops s).symm]; rfl
  | ackSample =>
    simp only [State.perform, State.performAck, nl]
    rw [show s.hostless.popLevel = s.popLevel.hostless from (popl s).symm]; rfl
  | poll i n =>
    simp only [State.perform, State.performPoll, nl]
    rw [show s.hostless.popLevel = s.popLevel.hostless from (popl s).symm]
    have : s.hostless.cfg = s.cfg := rfl
    rw [this]
    split
    · rfl
    · split <;> rfl
  | _ => rfl

theorem advance_hostless (s : State) : s.advance.hostless = s.hostless.advance := by
  have hs : s.hostless.seq = s.seq := rfl
  unfold State.advance
  rw [hs]
  split
  · rfl
  · rw [perform_hostless]; rfl

/-- A command leaves the host's turns to come as they are. -/
theorem perform_script (c : Cmd) (s : State) : (s.perform c).world.script = s.world.script := by
  cases c with
  | busWrite b =>
    simp only [State.perform, State.performWrite]
    split <;> simp
  | poll i n =>
    simp only [State.perform, State.performPoll]
    split
    · simp
    · split <;> simp
  | ackSample => simp [State.perform, State.performAck]
  | _ => rfl

theorem advance_script (s : State) : s.advance.world.script = s.world.script := by
  unfold State.advance
  split
  · rfl
  · rw [perform_script]; rfl

theorem tick_hostless (s : State) (h : s.NoReset) : s.tick.hostless = s.hostless.tick := by
  unfold State.tick
  rw [gap_of_script_nil s.hostless rfl, advance_hostless, gap_hostless s h]

theorem tick_noReset (s : State) (h : s.NoReset) : s.tick.NoReset := by
  unfold State.tick State.NoReset
  rw [advance_script]
  exact fun e => h (hostTurns_script_subset _ _ e)

/-! ### Runs -/

/-- A run with no command left stays where it is. -/
theorem run_of_seq_nil (n : Nat) (s : State) (h : s.seq = []) : s.run n = s := by
  cases n with
  | zero => rfl
  | succ n => simp [State.run, h]

theorem run_succ (n : Nat) (s : State) (h : s.seq ≠ []) : s.run (n + 1) = s.tick.run n := by
  cases hs : s.seq with
  | nil => exact absurd hs h
  | cons c cs => simp [State.run, hs]

/-- Without resets, a run does to everything but `ovr`, the answered reads and the script what it does alone. -/
theorem run_hostless (n : Nat) : ∀ s : State, s.NoReset → (s.run n).hostless = s.hostless.run n := by
  induction n with
  | zero => intro s _; rfl
  | succ n ih =>
    intro s h
    by_cases hs : s.seq = []
    · rw [run_of_seq_nil _ _ hs, run_of_seq_nil _ _ (show s.hostless.seq = [] from hs)]
    · rw [run_succ _ _ hs, run_succ _ _ (show s.hostless.seq ≠ [] from hs), ih _ (tick_noReset s h), tick_hostless s h]

theorem run_noReset (n : Nat) : ∀ s : State, s.NoReset → (s.run n).NoReset := by
  induction n with
  | zero => intro s h; exact h
  | succ n ih =>
    intro s h
    by_cases hs : s.seq = []
    · rwa [run_of_seq_nil _ _ hs]
    · rw [run_succ _ _ hs]; exact ih _ (tick_noReset s h)

/-- A longer run goes on where a shorter one stopped. -/
theorem run_add (m n : Nat) : ∀ s : State, s.run (m + n) = (s.run m).run n := by
  induction m with
  | zero => intro s; simp [State.run]
  | succ m ih =>
    intro s
    by_cases hs : s.seq = []
    · simp [run_of_seq_nil, hs]
    · rw [Nat.succ_add, run_succ _ _ hs, run_succ _ _ hs, ih]

/-! ### Runs of transfers -/

/-- A command that writes to the bus or waits. -/
def Cmd.isPlain : Cmd → Bool
  | .busWrite _ => true
  | .delay _ => true
  | _ => false

/-- The event a bus write or a wait leaves when it succeeds. -/
def Cmd.okEvent (c : Config) : Cmd → Event
  | .busWrite b => .busWrite c.i2cAddr b .ok
  | .delay t => .delay t
  | _ => .delay 0

/-- How many bus writes are among some commands. -/
def busWrites (cs : List Cmd) : Nat := cs.countP fun c => match c with | .busWrite _ => true | _ => false

/-- Without host turns, transfers that all succeed use up their answers, leave their events, and change nothing
else but the free values drawn. -/
theorem run_plain (cs : List Cmd) :
    ∀ (s : State) (tail : List Cmd) (rest : List BusAnswer), s.world.script = [] → s.seq = cs ++ tail →
      cs.all Cmd.isPlain → s.world.busAnswers = List.replicate (busWrites cs) .ok ++ rest →
      ∃ d ws, s.run cs.length =
        { s with
          seq := tail
          world := { s.world with busAnswers := rest, draws := d }
          log := { s.log with trace := s.log.trace ++ cs.map (Cmd.okEvent s.cfg), waits := ws } } := by
  induction cs with
  | nil =>
    intro s tail rest hsc hseq _ hb
    refine ⟨s.world.draws, s.log.waits, ?_⟩
    obtain ⟨cfg, busy, lcd, bl, dec, mi, ovr, pd, po, res, work, seq, ⟨sc, ba, pl, dr⟩, ⟨tr, wt, rd⟩⟩ := s
    simp_all [State.run, busWrites]
  | cons c cs ih =>
    intro s tail rest hsc hseq hp hb
    have hne : s.seq ≠ [] := by rw [hseq]; simp
    have htick : s.tick = (s.withSeq (cs ++ tail)).perform c := by
      unfold State.tick
      rw [gap_of_script_nil s hsc]
      simp [State.advance, hseq]
    rw [List.all_cons, Bool.and_eq_true] at hp
    rw [List.length_cons, run_succ _ _ hne, htick]
    cases c with
    | busWrite b =>
      have hb' : s.world.busAnswers = .ok :: (List.replicate (busWrites cs) .ok ++ rest) := by
        simpa [busWrites, List.replicate_succ] using hb
      let u : State :=
        { s with
          seq := cs ++ tail
          world := { s.world with busAnswers := List.replicate (busWrites cs) .ok ++ rest }
          log := { s.log with trace := s.log.trace ++ [.busWrite s.cfg.i2cAddr b .ok] } }
      have hperf : (s.withSeq (cs ++ tail)).perform (.busWrite b) = u := by
        simp [u, State.perform, State.performWrite, State.nextAnswer, State.popAnswer, hb', State.emit, State.withSeq]
      obtain ⟨d, ws, h⟩ := ih u tail rest hsc rfl hp.2 rfl
      exact ⟨d, ws, by rw [hperf, h]; simp [u, Cmd.okEvent]⟩
    | delay t =>
      obtain ⟨d, ws, h⟩ := ih ((s.withSeq (cs ++ tail)).elapse t) tail rest hsc rfl hp.2
        (by simpa [busWrites] using hb)
      refine ⟨d, ws, ?_⟩
      rw [State.perform, h]
      simp [Cmd.okEvent, State.withSeq, State.elapse]
    | _ => simp [Cmd.isPlain] at hp

/-- Without host turns, transfers whose next bus write fails end the operation there: the working copy is committed
with the code, and no later command is performed. -/
theorem run_failed_write (s : State) (b : Byte) (cs : List Cmd) (rest : List BusAnswer) (n : Nat)
    (hsc : s.world.script = []) (hseq : s.seq = .busWrite b :: cs) (hb : s.world.busAnswers = .err :: rest) :
    s.run (n + 1) =
      { s with
        busy := false
        res := { s.work with lastErr := .busTransferFailure }
        work := { s.work with lastErr := .busTransferFailure }
        seq := []
        world := { s.world with busAnswers := rest }
        log := { s.log with trace := s.log.trace ++ [.busWrite s.cfg.i2cAddr b .err] } } := by
  have hne : s.seq ≠ [] := by rw [hseq]; simp
  rw [run_succ _ _ hne, run_of_seq_nil]
  · unfold State.tick
    rw [gap_of_script_nil s hsc]
    simp [State.advance, hseq, State.perform, State.performWrite, State.nextAnswer, State.popAnswer, hb, State.emit,
      State.raise, State.withWork, State.commit, State.withSeq]
  · unfold State.tick
    rw [gap_of_script_nil s hsc]
    simp [State.advance, hseq, State.perform, State.performWrite, State.nextAnswer, hb]

/-- The last command of an LCD operation. -/
theorem run_endWith (s : State) (e : ErrCode) (n : Nat) (hsc : s.world.script = []) (hseq : s.seq = [.endWith e]) :
    s.run (n + 1) = s.raise e := by
  have hne : s.seq ≠ [] := by rw [hseq]; simp
  have ht : s.tick = s.raise e := by
    unfold State.tick
    rw [gap_of_script_nil s hsc]
    simp [State.advance, hseq, State.perform, State.raise, State.withSeq, State.withWork, State.commit]
  rw [run_succ _ _ hne, ht, run_of_seq_nil _ _ rfl]

/-! ### Acceptance -/

/-- All that an operation can answer. -/
theorem issue_cases (s u : State) :
    (s.cfg.wf = false ∧ s.issue u = .refused .illFormedConfig) ∨
      (s.cfg.wf = true ∧ s.busy = true ∧ s.issue u = .next (s.withOvr true)) ∨
      (s.cfg.wf = true ∧ s.busy = false ∧ s.issue u = .next u.resume) := by
  unfold State.issue
  cases s.cfg.wf <;> cases s.busy <;> simp

/-- A legal, idle engine performs the operation to its end. -/
theorem issue_of_accepts (s u : State) (h : s.Accepts) : s.issue u = .next u.resume := by
  simp [State.issue, h.legal, h.idle]

theorem seqCost_append (c : Config) (as bs : List Cmd) : seqCost c (as ++ bs) = seqCost c as + seqCost c bs := by
  simp [seqCost]

theorem seqCost_plain (c : Config) (cs : List Cmd) (h : cs.all Cmd.isPlain) : seqCost c cs = cs.length := by
  induction cs with
  | nil => rfl
  | cons x xs ih =>
    rw [List.all_cons, Bool.and_eq_true] at h
    have := ih h.2
    cases x <;> simp_all [seqCost, Cmd.cost, Cmd.isPlain] <;> omega

end Sys2Proof.Machine
end

