-- ==== Sys2Proof/Laws/Exec.lean ====
section
/-! SUPPORT. Every operation is the issue of a started state; what a started state is, and how it runs. -/

namespace Sys2Proof.Machine

/-- Every operation is issued from its started state. -/
theorem exec_eq_issue (i : Instr) (s : State) : exec i s = s.issue (s.started i) := by cases i <;> rfl

/-- A legal, idle engine brings the started operation to its end. -/
theorem exec_of_accepts (i : Instr) (s : State) (h : s.Accepts) : exec i s = .next (s.started i).resume := by
  rw [exec_eq_issue, issue_of_accepts s _ h]

/-- Starting an operation makes the engine busy, gives it its working copy and its commands, may set INIT's
`lcd_state`, and changes nothing else. -/
theorem started_eq (s : State) (i : Instr) :
    s.started i =
      { s with
        busy := true
        lcd := (s.started i).lcd
        work := (s.started i).work
        seq := (s.started i).seq } := by
  have lcd (w : Results) (cs : List Cmd) :
      s.lcdStart w cs =
        { s with
          busy := true
          lcd := (s.lcdStart w cs).lcd
          work := (s.lcdStart w cs).work
          seq := (s.lcdStart w cs).seq } := by
    unfold State.lcdStart
    split <;> rfl
  cases i with
  | init =>
    simp only [State.started, startInit]
    split <;> rfl
  | command v => exact lcd _ _
  | data v => exact lcd _ _
  | clear => exact lcd _ _
  | setCursor r c => exact lcd _ _
  | sensorRead => rfl

theorem started_cfg (s : State) (i : Instr) : (s.started i).cfg = s.cfg := by rw [started_eq]

theorem started_world (s : State) (i : Instr) : (s.started i).world = s.world := by rw [started_eq]

theorem started_log (s : State) (i : Instr) : (s.started i).log = s.log := by rw [started_eq]

theorem started_busy (s : State) (i : Instr) : (s.started i).busy = true := by rw [started_eq]

theorem started_noReset (s : State) (i : Instr) (h : s.NoReset) : (s.started i).NoReset := by
  unfold State.NoReset
  rw [started_world]
  exact h

/-- What an operation starts from does not depend on `ovr`, the answered reads or the host's turns. -/
theorem started_hostless (s : State) (i : Instr) : (s.started i).hostless = s.hostless.started i := by
  have lcd (w : Results) (cs : List Cmd) : (s.lcdStart w cs).hostless = s.hostless.lcdStart w cs := by
    simp only [State.lcdStart, show s.hostless.lcd = s.lcd from rfl]
    split <;> rfl
  cases i with
  | init =>
    simp only [State.started, startInit, show s.hostless.lcd = s.lcd from rfl]
    split <;> rfl
  | command v => exact lcd _ _
  | data v => exact lcd _ _
  | clear => exact lcd _ _
  | setCursor r c => exact lcd _ _
  | sensorRead => rfl

theorem resume_hostless (s : State) (h : s.NoReset) : s.resume.hostless = s.hostless.resume := run_hostless _ _ h

/-- An LCD operation all of whose writes succeed: the working copy is committed with code NONE, the events are those
of its commands, and its answers are used up. -/
theorem resume_transfers (s : State) (cs : List Cmd) (last : Cmd) (rest : List BusAnswer) (hs : s.NoReset)
    (hseq : s.seq = cs ++ [last]) (hp : cs.all Cmd.isPlain)
    (hb : s.world.busAnswers = List.replicate (busWrites cs) .ok ++ rest)
    (hl : last = .endWith .none ∨ last = .initDone) :
    s.resume.res = { s.work with lastErr := .none } ∧ s.resume.busy = false ∧
      s.resume.lcd = (if last = .initDone then .ready else s.lcd) ∧
      s.resume.log.trace = s.log.trace ++ cs.map (Cmd.okEvent s.cfg) ∧ s.resume.world.busAnswers = rest := by
  have hcost : seqCost s.cfg s.seq = cs.length + 1 := by
    rw [hseq, seqCost_append, seqCost_plain _ _ hp]
    rcases hl with rfl | rfl <;> rfl
  have hr : s.hostless.resume = (s.hostless.run cs.length).run 1 := by
    unfold State.resume
    rw [show seqCost s.hostless.cfg s.hostless.seq = cs.length + 1 from hcost, run_add]
  obtain ⟨d, ws, h⟩ := run_plain cs s.hostless [last] rest rfl hseq hp hb
  rw [h] at hr
  have key : s.resume.hostless.res = { s.work with lastErr := .none } ∧ s.resume.hostless.busy = false ∧
      s.resume.hostless.lcd = (if last = .initDone then .ready else s.lcd) ∧
      s.resume.hostless.log.trace = s.log.trace ++ cs.map (Cmd.okEvent s.cfg) ∧
      s.resume.hostless.world.busAnswers = rest := by
    rw [resume_hostless s hs, hr]
    rcases hl with rfl | rfl
    · rw [run_endWith _ .none 0 rfl rfl]; exact ⟨rfl, rfl, rfl, rfl, rfl⟩
    · exact ⟨rfl, rfl, rfl, rfl, rfl⟩
  exact key

/-- An LCD operation one of whose writes fails: the working copy is committed with BUS_TRANSFER_FAILURE, the events
end with the failing write, and no further answer is used. -/
theorem resume_failed_transfer (s : State) (pre post : List Cmd) (b : Byte) (rest : List BusAnswer) (hs : s.NoReset)
    (hseq : s.seq = pre ++ .busWrite b :: post) (hp : pre.all Cmd.isPlain)
    (hb : s.world.busAnswers = List.replicate (busWrites pre) .ok ++ .err :: rest) :
    s.resume.res = { s.work with lastErr := .busTransferFailure } ∧ s.resume.busy = false ∧ s.resume.lcd = s.lcd ∧
      s.resume.log.trace =
        s.log.trace ++ pre.map (Cmd.okEvent s.cfg) ++ [.busWrite s.cfg.i2cAddr b .err] ∧
      s.resume.world.busAnswers = rest := by
  have hcost : seqCost s.cfg s.seq = pre.length + (seqCost s.cfg post + 1) := by
    rw [hseq, seqCost_append, seqCost_plain _ _ hp]
    simp only [seqCost, List.map_cons, List.sum_cons, Cmd.cost]
    omega
  have hr : s.hostless.resume = (s.hostless.run pre.length).run (seqCost s.cfg post + 1) := by
    unfold State.resume
    rw [show seqCost s.hostless.cfg s.hostless.seq = pre.length + (seqCost s.cfg post + 1) from hcost, run_add]
  obtain ⟨d, ws, h⟩ := run_plain pre s.hostless (.busWrite b :: post) (.err :: rest) rfl hseq hp hb
  rw [h, run_failed_write _ b post rest _ rfl rfl rfl] at hr
  have key : s.resume.hostless.res = { s.work with lastErr := .busTransferFailure } ∧ s.resume.hostless.busy = false ∧
      s.resume.hostless.lcd = s.lcd ∧
      s.resume.hostless.log.trace =
        s.log.trace ++ pre.map (Cmd.okEvent s.cfg) ++ [.busWrite s.cfg.i2cAddr b .err] ∧
      s.resume.hostless.world.busAnswers = rest := by
    rw [resume_hostless s hs, hr]
    exact ⟨rfl, rfl, rfl, rfl, rfl⟩
  exact key

/-- An operation that is turned away ends with its code and no event. -/
theorem resume_turnedAway (s : State) (e : ErrCode) (hs : s.NoReset) :
    (s.turnedAway e).resume.hostless = { s.hostless with
      busy := false
      res := { s.res with lastErr := e }
      work := { s.res with lastErr := e }
      seq := [] } := by
  rw [resume_hostless (s.turnedAway e) hs]
  exact run_endWith _ e 0 rfl rfl

end Sys2Proof.Machine
end

