-- ==== Sys2Proof/Laws/PerInstr.lean ====
section
/-! SUPPORT. One family of statements for all operations, with a lemma for each constructor. -/

namespace Sys2Proof.Laws.OpcodeRow

/-- The word of an operation has a legal opcode, and the fields its row of the opcode map wants zero are zero
(30_encoding.md R83). -/
def Statement (i : Instr) : Prop :=
  opcOf (encode i) ∈ legalOpcodes ∧ fieldZ (encode i) = 0 ∧
    (opcOf (encode i) ≠ 0x05 → fieldB (encode i) = 0) ∧
    (opcOf (encode i) ∉ [0x02, 0x03, 0x05] → fieldA (encode i) = 0)

theorem init : Statement .init := by simp [Statement, encode, legalOpcodes]

theorem command (v : Byte) : Statement (.command v) := by simp [Statement, encode, legalOpcodes]

theorem data (v : Byte) : Statement (.data v) := by simp [Statement, encode, legalOpcodes]

theorem clear : Statement .clear := by simp [Statement, encode, legalOpcodes]

theorem setCursor (row col : Byte) : Statement (.setCursor row col) := by simp [Statement, encode, legalOpcodes]

theorem sensorRead : Statement .sensorRead := by simp [Statement, encode, legalOpcodes]

end Sys2Proof.Laws.OpcodeRow
end

