-- ==== Sys2Proof/Laws/Progress.lean ====
section
/-! SUPPORT. What the host's turns can do before a command, and that every run comes to an end. -/

namespace Sys2Proof.Machine

/-- Before a command the host either leaves everything but `ovr`, the answered reads and the script, or resets. -/
theorem hostTurns_cases (ts : List Turn) :
    ∀ s : State, (s.hostTurns ts).hostless = s.hostless ∨
      ∃ u : State, Turn.act .reset ∈ ts ∧ s.hostTurns ts = u.hardReset ∧ u.hostless = s.hostless := by
  induction ts with
  | nil => intro s; exact .inl rfl
  | cons x ts ih =>
    intro s
    cases x with
    | pass => exact .inl rfl
    | waitIdle => exact .inl rfl
    | act a =>
      simp only [State.hostTurns]
      by_cases ha : a = .reset
      · subst ha
        have hb : ((s.withScript ts).hostAct .reset).busy = false := rfl
        rw [if_neg (by rw [hb]; simp)]
        exact .inr ⟨s.withScript ts, by simp, rfl, rfl⟩
      · have hact : ((s.withScript ts).hostAct a).hostless = s.hostless := hostAct_hostless (s.withScript ts) a ha
        split
        · rcases ih ((s.withScript ts).hostAct a) with h | ⟨u, hm, hu, hh⟩
          · exact .inl (h.trans hact)
          · exact .inr ⟨u, List.mem_cons_of_mem _ hm, hu, hh.trans hact⟩
        · exact .inl hact

theorem gap_cases (s : State) :
    s.gap.hostless = s.hostless ∨ ∃ u : State, Turn.act .reset ∈ s.world.script ∧ s.gap = u.hardReset ∧ u.hostless = s.hostless :=
  hostTurns_cases _ s

/-- The configuration survives the host's turns. -/
theorem gap_cfg (s : State) : s.gap.cfg = s.cfg := by
  rcases gap_cases s with h | ⟨u, _, h, hu⟩
  · exact cfg_of_hostless _ _ h
  · rw [h]; exact cfg_of_hostless u s hu

/-- A command leaves the configuration as it is. -/
theorem perform_cfg (c : Cmd) (s : State) : (s.perform c).cfg = s.cfg := by
  cases c with
  | busWrite b =>
    simp only [State.perform, State.performWrite]
    split <;> simp
  | poll i n =>
    simp only [State.perform, State.performPoll]
    split
    · simp
    · split <;> simp
  | ackSample => simp [State.perform, State.performAck]
  | _ => rfl

theorem advance_cfg (s : State) : s.advance.cfg = s.cfg := by
  unfold State.advance
  split
  · rfl
  · rw [perform_cfg]; rfl

theorem tick_cfg (s : State) : s.tick.cfg = s.cfg := (advance_cfg _).trans (gap_cfg s)

theorem run_cfg (n : Nat) : ∀ s : State, (s.run n).cfg = s.cfg := by
  induction n with
  | zero => intro s; rfl
  | succ n ih =>
    intro s
    by_cases hs : s.seq = []
    · rw [run_of_seq_nil _ _ hs]
    · rw [run_succ _ _ hs, ih, tick_cfg]

/-! ### Every command makes progress -/

theorem cost_pos (c : Config) (x : Cmd) : 0 < x.cost c := by cases x <;> simp [Cmd.cost]

theorem seqCost_cons (c : Config) (x : Cmd) (xs : List Cmd) : seqCost c (x :: xs) = x.cost c + seqCost c xs := by
  simp [seqCost]

theorem seqCost_dropWhile_le (c : Config) (p : Cmd → Bool) (cs : List Cmd) : seqCost c (cs.dropWhile p) ≤ seqCost c cs := by
  induction cs with
  | nil => simp
  | cons x xs ih =>
    rw [List.dropWhile_cons]
    split
    · rw [seqCost_cons]; omega
    · exact Nat.le_refl _

/-- A command leaves less to perform than it found together with itself. -/
theorem perform_cost_lt (x : Cmd) (s : State) : seqCost s.cfg (s.perform x).seq < x.cost s.cfg + seqCost s.cfg s.seq := by
  have hpos := cost_pos s.cfg x
  have hnil : seqCost s.cfg [] = 0 := rfl
  cases x with
  | busWrite b =>
    simp only [State.perform, State.performWrite]
    split
    · simpa using hpos
    · simp only [State.raise_seq, hnil]; omega
  | ackSample => simpa [State.perform, State.performAck] using hpos
  | poll i n =>
    simp only [State.perform, State.performPoll]
    split
    · simpa using hpos
    · split
      · have := seqCost_dropWhile_le s.cfg Cmd.isPoll s.seq
        simp only [State.withSeq_seq]; omega
      · simp only [State.withSeq_seq, seqCost_cons, Cmd.cost]; omega
  | endWith e => simp only [State.perform, State.raise_seq, hnil]; omega
  | initDone => simp only [State.perform, State.raise_seq, hnil]; omega
  | readDone => simp only [State.perform, State.commit_seq, hnil]; omega
  | delay t => simpa [State.perform] using hpos
  | setDir d => simpa [State.perform] using hpos
  | pinWrite l => simpa [State.perform] using hpos
  | enterDec d => simpa [State.perform] using hpos
  | clearFrame => simpa [State.perform] using hpos
  | validate => simpa [State.perform] using hpos

/-- A move leaves less to perform. -/
theorem tick_cost_lt (s : State) (h : s.seq ≠ []) : seqCost s.cfg s.tick.seq < seqCost s.cfg s.seq := by
  unfold State.tick
  rcases gap_cases s with hg | ⟨u, _, hg, hu⟩
  · have hseq : s.gap.seq = s.seq := seq_of_hostless _ _ hg
    have hcfg := gap_cfg s
    unfold State.advance
    cases hs : s.seq with
    | nil => exact absurd hs h
    | cons x xs =>
      rw [hseq, hs]
      have := perform_cost_lt x (s.gap.withSeq xs)
      simp only [State.withSeq_cfg, State.withSeq_seq, hcfg] at this
      rw [seqCost_cons]
      exact this
  · rw [hg]
    cases hs : s.seq with
    | nil => exact absurd hs h
    | cons x xs =>
      have hpos := cost_pos s.cfg x
      rw [seqCost_cons]
      have : seqCost s.cfg (u.hardReset.advance).seq = 0 := rfl
      omega

/-- A run long enough for the remaining commands performs them all. -/
theorem run_seq_nil (n : Nat) : ∀ s : State, seqCost s.cfg s.seq ≤ n → (s.run n).seq = [] := by
  induction n with
  | zero =>
    intro s h
    cases hs : s.seq with
    | nil => exact hs
    | cons x xs =>
      have := cost_pos s.cfg x
      rw [hs, seqCost_cons] at h
      omega
  | succ n ih =>
    intro s h
    by_cases hs : s.seq = []
    · rw [run_of_seq_nil _ _ hs, hs]
    · rw [run_succ _ _ hs]
      apply ih
      rw [tick_cfg]
      have := tick_cost_lt s hs
      omega

theorem resume_seq_nil (s : State) : s.resume.seq = [] := run_seq_nil _ s (Nat.le_refl _)

/-- An invariant of the moves holds at the end of a run. -/
theorem run_induct (P : State → Prop) (step : ∀ s, s.seq ≠ [] → P s → P s.tick) (n : Nat) :
    ∀ s, P s → P (s.run n) := by
  induction n with
  | zero => intro s h; exact h
  | succ n ih =>
    intro s h
    by_cases hs : s.seq = []
    · rwa [run_of_seq_nil _ _ hs]
    · rw [run_succ _ _ hs]; exact ih _ (step s hs h)

/-! ### Every operation ends with a command that ends it -/

/-- A command that makes the engine idle. -/
def Cmd.isLast : Cmd → Bool
  | .endWith _ => true
  | .initDone => true
  | .readDone => true
  | _ => false

/-- A busy engine still has a command to come that ends its operation. -/
def State.Closed (s : State) : Prop := s.busy = true → ∃ pre c, s.seq = pre ++ [c] ∧ c.isLast = true

theorem perform_idle_of_isLast (c : Cmd) (s : State) (h : c.isLast = true) : (s.perform c).busy = false := by
  cases c <;> first | rfl | simp [Cmd.isLast] at h

theorem dropWhile_isPoll_append (pre : List Cmd) (c : Cmd) (h : c.isLast = true) :
    ∃ pre', (pre ++ [c]).dropWhile Cmd.isPoll = pre' ++ [c] := by
  induction pre with
  | nil => exact ⟨[], by cases c <;> simp_all [Cmd.isLast, Cmd.isPoll]⟩
  | cons x xs ih =>
    by_cases hx : x.isPoll = true
    · simpa [List.dropWhile_cons, hx] using ih
    · exact ⟨x :: xs, by simp [hx]⟩

/-- A command keeps the engine closed. -/
theorem perform_closed (x : Cmd) (s : State) (pre : List Cmd) (c : Cmd) (hseq : s.seq = pre ++ [c])
    (hc : c.isLast = true) : (s.perform x).Closed := by
  have keep : ∀ t : State, t.seq = s.seq → t.Closed := fun t ht _ => ⟨pre, c, ht.trans hseq, hc⟩
  have idle : ∀ t : State, t.busy = false → t.Closed := fun t ht hb => by rw [ht] at hb; exact absurd hb (by simp)
  cases x with
  | busWrite b =>
    simp only [State.perform, State.performWrite]
    split
    · exact keep _ (by simp)
    · exact idle _ (by simp)
  | poll i n =>
    simp only [State.perform, State.performPoll]
    split
    · exact keep _ (by simp)
    · split
      · obtain ⟨pre', h⟩ := dropWhile_isPoll_append pre c hc
        intro _
        exact ⟨pre', c, by rw [State.withSeq_seq, hseq, h], hc⟩
      · intro _
        exact ⟨.delay s.cfg.tPoll :: .poll i (n + 1) :: pre, c, by simp [hseq], hc⟩
  | ackSample => exact keep _ (by simp [State.perform, State.performAck])
  | endWith e => exact idle _ rfl
  | initDone => exact idle _ rfl
  | readDone => exact idle _ rfl
  | delay t => exact keep _ rfl
  | setDir d => exact keep _ rfl
  | pinWrite l => exact keep _ rfl
  | enterDec d => exact keep _ rfl
  | clearFrame => exact keep _ rfl
  | validate => exact keep _ rfl

theorem tick_closed (s : State) (h : s.Closed) : s.tick.Closed := by
  have idle : ∀ t : State, t.busy = false → t.Closed := fun t ht hb => by rw [ht] at hb; exact absurd hb (by simp)
  unfold State.tick
  rcases gap_cases s with hg | ⟨u, _, hg, _⟩
  · have hseq : s.gap.seq = s.seq := seq_of_hostless _ _ hg
    have hbusy : s.gap.busy = s.busy := busy_of_hostless _ _ hg
    cases hb : s.busy with
    | false =>
      have : s.gap.advance.busy = false := by
        unfold State.advance
        split
        · rw [hbusy, hb]
        · next x xs _ =>
          have hx : (s.gap.withSeq xs).busy = false := by simp [hbusy, hb]
          cases x with
          | busWrite b => simp only [State.perform, State.performWrite]; split <;> simp [hbusy, hb]
          | poll i n =>
            simp only [State.perform, State.performPoll]
            split
            · simp [hbusy, hb]
            · split <;> simp [hbusy, hb]
          | ackSample => simp [State.perform, State.performAck, hbusy, hb]
          | endWith e => rfl
          | initDone => rfl
          | readDone => rfl
          | delay t => simpa [State.perform] using hx
          | setDir d => simpa [State.perform] using hx
          | pinWrite l => simpa [State.perform] using hx
          | enterDec d => simpa [State.perform] using hx
          | clearFrame => simpa [State.perform] using hx
          | validate => simpa [State.perform] using hx
      exact idle _ this
    | true =>
      obtain ⟨pre, c, hs, hc⟩ := h hb
      unfold State.advance
      rw [hseq, hs]
      cases pre with
      | nil => exact idle _ (perform_idle_of_isLast c _ hc)
      | cons x xs => exact perform_closed x _ xs c rfl hc
  · rw [hg]; exact idle _ rfl

theorem started_closed (s : State) (i : Instr) : (s.started i).Closed := by
  intro _
  have turned (e : ErrCode) : ∃ pre c, (s.turnedAway e).seq = pre ++ [c] ∧ c.isLast = true := ⟨[], .endWith e, rfl, rfl⟩
  have lcd (w : Results) (cs : List Cmd) : ∃ pre c, (s.lcdStart w cs).seq = pre ++ [c] ∧ c.isLast = true := by
    unfold State.lcdStart
    split
    · exact ⟨cs, .endWith .none, rfl, rfl⟩
    · exact turned _
  cases i with
  | init =>
    simp only [State.started, startInit]
    split
    · exact ⟨initCmds s.cfg s.backlight, .initDone, rfl, rfl⟩
    · exact turned _
  | command v => exact lcd _ _
  | data v => exact lcd _ _
  | clear => exact lcd _ _
  | setCursor r c => exact lcd _ _
  | sensorRead =>
    refine ⟨?_, .readDone, ?_, rfl⟩
    rotate_left
    · exact (List.append_assoc _ [Cmd.enterDec .validate, .validate, .setDir .input] [Cmd.readDone]).symm

/-- A closed engine that has performed all its commands is idle. -/
theorem resume_idle (s : State) (h : s.Closed) : s.resume.busy = false := by
  have hc : s.resume.Closed := run_induct State.Closed (fun s _ h => tick_closed s h) _ s h
  cases hb : s.resume.busy with
  | false => rfl
  | true =>
    obtain ⟨pre, c, hs, _⟩ := hc hb
    rw [resume_seq_nil] at hs
    simp at hs

end Sys2Proof.Machine
end

