-- ==== Sys2Proof/Tests/Slice0.lean ====
section
/-! SUPPORT. Tests of the model on the vectors of 95_test_vectors.md, the refusal of ill-formed terms, and for every
obligation with hypotheses a state and operands that meet them. -/

namespace Sys2Proof.Tests

open Sys2Proof Sys2Proof.Machine

/-! ### Helpers -/

/-- `n` bus writes that succeed. -/
def oks (n : Nat) : List BusAnswer := List.replicate n .ok

/-- `n` bus writes that succeed, and one that fails. -/
def failAt (n : Nat) : List BusAnswer := oks n ++ [.err]

/-- A state with the next bus answers listed. -/
def bus (s : State) (as : List BusAnswer) : State := { s with world := { s.world with busAnswers := as } }

/-- A state with the next pin levels listed. -/
def pin (s : State) (ls : List Level) : State := { s with world := { s.world with pinLevels := ls } }

/-- A state with a cursor. -/
def at_ (s : State) (row : BitVec 2) (col : Byte) : State :=
  { s with res := { s.res with cursorRow := row, cursorCol := col } }

/-- The state after INIT. -/
def ready : State := State.reset.withLcd .ready

/-- The state after INIT with the next four writes Ok. -/
def ready4 : State := bus ready (oks 4)

/-- A host's 32-bit write. -/
def wr (addr : Nat) (w : Word) : Turn := .act (.write addr 4 w)

/-- The default configuration with other row counts. -/
def rows (n : Nat) : Config := { Config.defaults with numRows := n }

/-- A configuration with a short timeout, so that a whole read is a few hundred samples. -/
def short : Config := { Config.defaults with tMeasTimeout := 4, tBitThreshold := 1 }

/-- The engine after reset under the short timeout. -/
def quick : State := State.resetWith short

/-- A value of an outcome's next state. -/
def look {α : Type} (f : State → α) : Host.Outcome State Fault Refusal → Option α
  | .next t => some (f t)
  | .fault _ => none
  | .refused _ => none

/-- The bytes written to the bus. -/
def bytes (s : State) : List Byte := s.log.trace.filterMap Event.byte

/-- The registers CURSOR and STATUS. -/
def cursorStatus (s : State) : Word × Word := (s.cursorWord, s.statusWord)

/-- The registers READING, FRAME0, FRAME1 and STATUS. -/
def readOut (s : State) : Word × Word × Word × Word := (s.readingWord, s.frame0Word, s.frame1Word, s.statusWord)

/-- The pulse train of program P3 under the short configuration: frame 28 00 14 00 and the given checksum byte, a
1-pulse one poll above the threshold and a 0-pulse at it. -/
def train (checksum : Byte) (upTo : Nat) : List Measured :=
  (List.range upTo).map (fun i =>
    if i = 0 then .duration 0
    else if Frame.streamBit ⟨0x28, 0x00, 0x14, 0x00, checksum⟩ ((i - 4) / 2) && decide (4 ≤ i) && decide (i % 2 = 0)
      then .duration 2 else .duration 1)
    ++ [.timeout]

/-- The pin levels of a read with the acknowledge sample and the train. -/
def readPins (ack : Level) (os : List Measured) : List Level := ack :: trainSamples 4 0 os

/-! ### Ill-formed terms are refused (00_scope.md R8, R9, 30_encoding.md R92) -/

theorem test_wf_defaults : Config.defaults.wf = true := by decide

/-- 95_test_vectors.md 2.1: a map with two signals on one bit, such as RS = EN = 0, is refused. -/
theorem test_illformed_wire_map :
    { Config.defaults with wireMap := { WireMap.standard with en := 0 } }.wf = false := by decide

theorem test_wf_swapped_map :
    { Config.defaults with wireMap := { WireMap.standard with rs := 2, en := 0 } }.wf = true := by decide

theorem test_illformed_rows : (rows 0).wf = false ∧ (rows 1).wf = true ∧ (rows 4).wf = true ∧ (rows 5).wf = false := by
  decide

theorem test_illformed_columns :
    { Config.defaults with maxColumns := 0 }.wf = false ∧ { Config.defaults with maxColumns := 80 }.wf = true ∧
      { Config.defaults with maxColumns := 81 }.wf = false := by decide

theorem test_illformed_timeout :
    { Config.defaults with tMeasTimeout := 0 }.wf = false ∧ { Config.defaults with tMeasTimeout := 65535 }.wf = true ∧
      { Config.defaults with tMeasTimeout := 65536 }.wf = false := by decide

theorem test_illformed_counts :
    { Config.defaults with nMeas := 84 }.wf = false ∧ { Config.defaults with nPreamble := 3 }.wf = false ∧
      { Config.defaults with nBits := 41 }.wf = false := by decide

theorem test_illformed_command : (AsmLine.command 256).wf = false ∧ (AsmLine.command 255).wf = true := by decide

theorem test_illformed_data : (AsmLine.data 256).wf = false ∧ (AsmLine.data 0).wf = true := by decide

theorem test_illformed_char :
    (AsmLine.dataChar (Char.ofNat 200)).wf = false ∧ (AsmLine.dataChar 'H').wf = true := by decide

theorem test_illformed_setCursor :
    (AsmLine.setCursor 256 0).wf = false ∧ (AsmLine.setCursor 0 256).wf = false ∧
      (AsmLine.setCursor 255 255).wf = true := by decide

theorem test_illformed_text :
    (AsmLine.writeText ['H', Char.ofNat 200]).wf = false ∧ (AsmLine.writeText []).wf = true := by decide

theorem test_illformed_step :
    look bytes (step (State.resetWith { Config.defaults with wireMap := { WireMap.standard with en := 0 } })) = none := by
  decide

/-! ### Decoding: one word of each operation, written out from OP32 (30_encoding.md R80, R83)

Bits 31..24 are Z, 23..16 are B, 15..8 are A, 7..0 are OPC. -/

theorem test_decode_init : decode 0b00000000_00000000_00000000_00000001 = .ok .init := by decide

theorem test_decode_command : decode 0b00000000_00000000_11000101_00000010 = .ok (.command 0xC5) := by decide

theorem test_decode_data : decode 0b00000000_00000000_01001000_00000011 = .ok (.data 0x48) := by decide

theorem test_decode_clear : decode 0b00000000_00000000_00000000_00000100 = .ok .clear := by decide

theorem test_decode_setCursor : decode 0b00000000_00010011_00000010_00000101 = .ok (.setCursor 2 19) := by decide

theorem test_decode_sensorRead : decode 0b00000000_00000000_00000000_00010000 = .ok .sensorRead := by decide

/-- The thirteen illegal words of 95_test_vectors.md 2.5. -/
theorem test_decode_illegal :
    ([0x00000000, 0x00000006, 0x0000000F, 0x00000011, 0x000000FF, 0x00000101, 0x01000001, 0x00010003, 0x07000002,
      0x01000005, 0x00010004, 0x00000110, 0x80000010] : List Word).all (fun w => (decode w).toOption.isNone) = true := by
  decide

/-- 20_memory.md R61: the first byte of a word in the window is its bits 7..0. -/
theorem test_decode_bytes : decodeBytes [0x05, 0x02, 0x13, 0x00] = some (.setCursor 2 19) := by decide

/-- 95_test_vectors.md P1: `WRITE_TEXT "HI"` is the words 0x00004803 and 0x00004903. -/
theorem test_assemble_text : assemble (.writeText ['H', 'I']) = some [0x00004803, 0x00004903] := by decide

theorem test_assemble_setCursor : assemble (.setCursor 3 200) = some [0x00C80305] := by decide

/-! ### The expander byte (95_test_vectors.md 2.1) -/

theorem test_xbyte_default :
    xbyte WireMap.standard 0xA true true true = 0xAD ∧ xbyte WireMap.standard 0xF false true false = 0xF4 ∧
      xbyte WireMap.standard 0x5 true false false = 0x51 := by decide

theorem test_xbyte_other_maps :
    xbyte { WireMap.standard with rs := 2, en := 0 } 0x4 true false true = 0x4C ∧
      xbyte { WireMap.standard with rs := 2, en := 0 } 0x2 false true true = 0x29 ∧
      xbyte { WireMap.standard with d4 := 7, d5 := 6, d6 := 5, d7 := 4 } 0x3 true true true = 0xCD := by decide

/-! ### INIT (2.3) -/

theorem test_init :
    look (fun t => (bytes t, t.statusWord)) (exec .init (bus State.reset (oks 24))) =
      some ([0x3C, 0x38, 0x3C, 0x38, 0x3C, 0x38, 0x2C, 0x28, 0x2C, 0x28, 0x8C, 0x88, 0x0C, 0x08, 0xCC, 0xC8,
        0x0C, 0x08, 0x1C, 0x18, 0x0C, 0x08, 0x6C, 0x68], 0x0000000C) := by decide

/-- The third write fails: three bytes, delays of 44151 us, INITIALIZING and code 1. -/
theorem test_init_failure :
    look (fun t => (bytes t, (t.log.trace.map Event.least).sum, t.statusWord))
      (exec .init (bus State.reset [.ok, .ok, .err])) = some ([0x3C, 0x38, 0x3C], 44151, 0x0000010A) := by decide

/-! ### COMMAND and DATA (2.2) -/

/-- A raw clear command: no `T_CLEAR` after it, and the cursor stays. -/
theorem test_command :
    look (fun t => (bytes t, t.log.trace.length, t.cursorWord)) (exec (.command 0x01) (at_ ready4 2 9)) =
      some ([0x0C, 0x08, 0x1C, 0x18], 8, 0x00000902) := by decide

theorem test_command_state : look cursorStatus (exec (.command 0x00) State.reset) = some (0, 0x00000408) := by decide

/-- `DATA 'H'` at cursor (0, 255): the column wraps. -/
theorem test_data :
    look (fun t => (bytes t, t.cursorWord)) (exec (.data 0x48) (at_ ready4 0 255)) =
      some ([0x4D, 0x49, 0x8D, 0x89], 0x00000000) := by decide

/-- The second write fails: two bytes, the column advanced, code 1. -/
theorem test_data_failure :
    look (fun t => (t.log.trace, cursorStatus t)) (exec (.data 0x48) (at_ (bus ready [.ok, .err]) 0 4)) =
      some ([.busWrite 0x27 0x4D .ok, .delay 1, .busWrite 0x27 0x49 .err], (0x00000500, 0x0000010C)) := by decide

/-! ### CLEAR and SET_CURSOR (2.3) -/

/-- P2 line 5: the bytes of a clear and a minimum of 2102 us. -/
theorem test_clear :
    look (fun t => (bytes t, (t.log.trace.map Event.least).sum, t.cursorWord)) (exec .clear (at_ ready4 3 4)) =
      some ([0x0C, 0x08, 0x1C, 0x18], 2102, 0) := by decide

/-- The third write fails: delays 1 and 50 only, and the cursor is already reset. -/
theorem test_clear_failure :
    look (fun t => (bytes t, t.log.trace.map Event.least, cursorStatus t))
      (exec .clear (at_ (bus ready [.ok, .ok, .err]) 2 9)) =
      some ([0x0C, 0x08, 0x1C], [0, 1, 0, 50, 0], (0, 0x0000010C)) := by decide

/-- `SET_CURSOR 3, 200`: 0x54 + 200 mod 128 is 0x1C. -/
theorem test_setCursor :
    look (fun t => (bytes t, t.cursorWord)) (exec (.setCursor 3 200) ready4) =
      some ([0x9C, 0x98, 0xCC, 0xC8], 0x0000C803) := by decide

/-- `SET_CURSOR 7, 3` on two rows addresses row 1. -/
theorem test_setCursor_clamps :
    look (fun t => (bytes t, t.cursorWord))
      (exec (.setCursor 7 3) (bus ((State.resetWith (rows 2)).withLcd .ready) (oks 4))) =
      some ([0xCC, 0xC8, 0x3C, 0x38], 0x00000301) := by decide

/-! ### SENSOR_READ (2.4, P3, P4, P6) -/

/-- P3 with pulses at the boundary of the threshold: READING, FRAME0, FRAME1 and STATUS. -/
theorem test_sensorRead :
    look readOut (exec .sensorRead (pin quick (readPins .low (train 0x3C 84)))) =
      some (0x00011428, 0x00140028, 0x0001283C, 0x00000008) := by decide +kernel

/-- P6 line 1, the checksum byte is 0x3D (and the acknowledge sample High, which changes ACK_SEEN alone), and 2.4, the
timeout at measurement 82 with 39 bits, the last byte's seven bits right-aligned. -/
theorem test_sensorRead_invalid :
    look readOut (exec .sensorRead (pin quick (readPins .high (train 0x3D 84)))) =
        some (0x0000FFFF, 0x00140028, 0x0000283D, 0x00000308) ∧
      look readOut (exec .sensorRead (pin quick (readPins .low (train 0x3C 82)))) =
        some (0x0000FFFF, 0x00140028, 0x0001271E, 0x00000208) := by decide +kernel

/-- E7 with a timeout of four polls: the port trace of a line that stays High. -/
theorem test_measure_timeout :
    look (fun t => t.log.trace) (exec .sensorRead (pin quick (List.replicate 5 .high))) =
      some [.setDir .output, .write .low, .delay 18000, .setDir .input, .delay 40, .sample .high,
        .sample .high, .delay 1, .sample .high, .delay 1, .sample .high, .delay 1, .sample .high, .setDir .input] := by
  decide

/-! ### The host interface (2.5) -/

/-- Each illegal word ends with ILLEGAL_OP and no event, also in UNINIT. -/
theorem test_illegal_word :
    look (fun t => (t.log.trace, t.statusWord)) (step (State.reset.withScript [wr 0 0x00010003])) =
      some ([], 0x00000508) := by decide

/-- Overrun: DATA written during INIT is dropped and sets OVR. -/
theorem test_overrun :
    look cursorStatus (step ((bus State.reset (oks 24)).withScript [wr 0 0x00000001, .pass, wr 0 0x00004803])) =
      some (0x00000000, 0x0000100C) := by decide

/-- A write of STATUS with bit 12 clear changes nothing; with bit 12 set it clears OVR. -/
theorem test_ovr_w1c :
    look State.statusWord (step ((ready.withOvr true).withScript [wr 4 0x00000000])) = some 0x0000100C ∧
      look State.statusWord (step ((ready.withOvr true).withScript [wr 4 0x00001000])) = some 0x0000000C := by decide

/-- STATUS during INIT's power-up wait. -/
theorem test_status_init :
    look (fun t => t.log.reads)
      (step ((bus State.reset (oks 24)).withScript [wr 0 0x00000001, .act (.read 4 4)])) = some [0x0000000B] := by decide

/-- STATUS in the ReadBits phase of a read. -/
theorem test_status_readBits :
    look (fun t => t.log.reads)
      (step ((pin quick (List.replicate 5 .high)).withScript
        (wr 0 0x00000010 :: List.replicate 10 .pass ++ [.act (.read 4 4)]))) = some [0x00000039] := by decide

/-- Reads of `OP`, 0x18 and 0x1C, a misaligned read and a 16-bit read return 0. -/
theorem test_reads_zero :
    ((((((ready.hostAct (.read 0 4)).hostAct (.read 0x18 4)).hostAct (.read 0x1C 4)).hostAct (.read 6 4)).hostAct
      (.read 4 2)).log.reads) = [0, 0, 0, 0, 0] := by decide

/-- A byte write to offset 0 starts nothing, and a write to READING is ignored. -/
theorem test_writes_ignored :
    look (fun t => (t.log.trace, t.statusWord)) (step (ready.withScript [.act (.write 0 1 0x00000001)])) =
        some ([], 0x0000000C) ∧
      look State.readingWord (step (ready.withScript [wr 0x0C 0])) = some 0x0000FFFF := by decide

/-- The registers after reset. -/
theorem test_reset :
    cursorStatus State.reset = (0, 0x00000008) ∧ readOut State.reset = (0x0000FFFF, 0, 0, 0x00000008) := by decide

/-- A reset during INIT ends it: one write only, and the registers of a reset. -/
theorem test_reset_during_init :
    look (fun t => (bytes t, cursorStatus t))
      (step ((bus State.reset (oks 24)).withScript [wr 0 0x00000001, .pass, .pass, .act .reset])) =
      some ([0x3C], (0, 0x00000008)) := by decide

/-- P1 lines 2 and 3. -/
theorem test_writeText :
    look (fun t => (bytes t, t.cursorWord)) (writeText [0x48, 0x49] (bus ready (oks 8))) =
      some ([0x4D, 0x49, 0x8D, 0x89, 0x4D, 0x49, 0x9D, 0x99], 0x00000200) := by decide

/-- P5 line 4: the third write of 'O' fails, and 'K' is not sent. -/
theorem test_writeText_stops :
    look (fun t => (bytes t, cursorStatus t)) (writeText [0x4F, 0x4B] (at_ (bus ready [.ok, .ok, .err]) 1 0)) =
      some ([0x4D, 0x49, 0xFD], (0x00000101, 0x0000010C)) := by decide

/-! ### For every obligation with hypotheses, a state and operands that meet them -/

theorem accepts_reset : State.reset.Accepts := ⟨by decide, rfl⟩

theorem accepts_ready (as : List BusAnswer) : (bus ready as).Accepts := ⟨accepts_reset.legal, rfl⟩

/-- An outcome one can look into is a next state. -/
theorem next_of_look {α : Type} {f : State → α} {o : Host.Outcome State Fault Refusal} {v : α} (h : look f o = some v) :
    ∃ t, o = .next t ∧ f t = v := by
  cases o with
  | next t => exact ⟨t, rfl, Option.some.inj h⟩
  | fault r => cases h
  | refused r => cases h

/-- A legal, idle engine answers a next state. -/
theorem next_of_accepts (i : Instr) {s : State} (h : s.Accepts) : ∃ t, exec i s = .next t := ⟨_, exec_of_accepts i s h⟩

theorem noReset_nil (s : State) (h : s.world.script = []) : s.NoReset := by simp [State.NoReset, h]

theorem inv_reset : State.reset.Inv :=
  ⟨by decide, rfl, rfl, rfl, rfl, rfl, rfl, by decide, fun _ => ⟨rfl, rfl⟩, by decide, by decide, ⟨rfl, rfl⟩⟩

theorem witness_EncodeOfDecode : decode 0x00130205 = .ok (.setCursor 2 19) := by decide

/-- The host writes `DATA 'H'` to OP. -/
def offering (w : Word) : State := ready4.withScript [wr 0 w, .waitIdle]

theorem witness_StepRunsDecodedOperation :
    (offering 0x00004803).cfg.wf = true ∧ (offering 0x00004803).busy = false ∧
      (offering 0x00004803).world.script = .act (.write 0 4 0x00004803) :: [.waitIdle] ∧
      regAt (offering 0x00004803).cfg 0 4 = some .op ∧ decode 0x00004803 = .ok (.data 0x48) := by
  exact ⟨by decide, rfl, rfl, by decide, by decide⟩

theorem witness_FetchWordIsRunNext :
    State.reset.cfg.wf = true ∧ State.reset.cfg.regBase % 4 = 0 ∧
      decodeTableWord 32 0x00FF0205 = some (.setCursor 2 255) := by decide

theorem witness_IllegalWordEndsIllegalOp :
    (offering 0x00000006).Accepts ∧ (offering 0x00000006).NoReset ∧
      (offering 0x00000006).world.script = .act (.write 0 4 0x00000006) :: [.waitIdle] ∧
      regAt (offering 0x00000006).cfg 0 4 = some .op ∧ decode 0x00000006 = .error (.reservedOpcode 0x06) ∧
      ((offering 0x00000006).withScript [.waitIdle]).Quiet :=
  ⟨⟨by decide, rfl⟩, by unfold State.NoReset; decide, rfl, by decide, by decide, .inr rfl⟩

theorem witness_IllFormedWireMapRefused :
    ¬ (State.resetWith { Config.defaults with wireMap := { WireMap.standard with en := 0 } }).cfg.wireMap.positions.Nodup
    := by decide

theorem witness_EveryOperationComesToAnEnd : State.reset.Accepts := accepts_reset

/-- INIT just accepted. -/
def initRunning : State :=
  ((bus State.reset (oks 24)).begin State.reset.res (initCmds State.reset.cfg true ++ [.initDone])).withLcd .initializing

theorem witness_WordWhileBusyIsDropped :
    initRunning.cfg.wf = true ∧ initRunning.busy = true ∧ regAt initRunning.cfg 0 4 = some .op := by decide

theorem witness_StatusWriteClearsOvr :
    regAt (ready.withScript [wr 4 0x1000]).cfg 4 4 = some .status ∧ (ready.withScript [wr 4 0x1000]).cfg.wf = true ∧
      (ready.withScript [wr 4 0x1000]).busy = false ∧
      (ready.withScript [wr 4 0x1000]).world.script = .act (.write 4 4 0x1000) :: [] := by decide

/-- A narrow write at the first address of the window, and a misaligned 32-bit read at the last. -/
theorem witness_NarrowAccessHasNoEffect :
    ((1 : Nat) ≠ 4 ∨ 0 % 4 ≠ 0) ∧ inWindow ready.cfg 0 = true ∧ ((4 : Nat) ≠ 4 ∨ 31 % 4 ≠ 0) ∧
      inWindow ready.cfg 31 = true ∧ ready.cfg.wf = true ∧ ready.busy = false ∧
      (ready.withScript [.act (.write 0 1 1)]).world.script = .act (.write 0 1 1) :: [] ∧
      (ready.withScript [.act (.read 31 4)]).world.script = .act (.read 31 4) :: [] := by decide

theorem witness_UnmappedOffsetsReadZero : State.reset.cfg.regBase % 4 = 0 := by decide

theorem witness_RegisterReadsReturnTheirWord : State.reset.cfg.regBase % 4 = 0 := by decide

theorem witness_ResultRegisterFields : State.reset.cfg.regBase % 4 = 0 := by decide

theorem witness_OvrClearedOnlyByHost :
    ((ready.withOvr true).withScript [wr 4 0x1000]).ovr = true ∧
      ∃ t, step ((ready.withOvr true).withScript [wr 4 0x1000]) = .next t ∧ t.ovr = false :=
  ⟨rfl, next_of_look (f := State.ovr) (by decide)⟩

theorem witness_OvrSetOnlyByOpWrite :
    ((bus State.reset (oks 24)).withScript [wr 0 1, wr 0 0x4803]).ovr = false ∧
      ∃ t, step ((bus State.reset (oks 24)).withScript [wr 0 1, wr 0 0x4803]) = .next t ∧ t.ovr = true :=
  ⟨rfl, next_of_look (f := State.ovr) (by decide)⟩

theorem witness_ResetValues :
    (State.reset.hardReset = State.reset.hardReset ∧ Config.defaults = State.reset.cfg ∨
      State.reset.hardReset = State.reset ∧ Config.defaults = Config.defaults) ∧
      (ready.withScript [.act .reset]).cfg.wf = true ∧ (ready.withScript [.act .reset]).busy = false ∧
      (ready.withScript [.act .reset]).world.script = .act .reset :: [] :=
  ⟨.inl ⟨rfl, rfl⟩, by decide, rfl, rfl⟩

/-- The host lets `k` commands pass, then resets. -/
def resetAfter (k : Nat) (s : State) : State := s.withScript (List.replicate k .pass ++ .act .reset :: [])

/-- A reset before the first command, and one after three, of an INIT that a step finds running. -/
theorem witness_ResetEndsRunningOperation :
    ∀ k ∈ [0, 3],
      (resetAfter k initRunning).cfg.wf = true ∧ (resetAfter k initRunning).busy = true ∧
        (resetAfter k initRunning).world.script = List.replicate k .pass ++ .act .reset :: [] ∧
        ((resetAfter k initRunning).hostless.run k).busy = true ∧
        ((resetAfter k initRunning).hostless.run k).seq.length ≠ 0 := by
  decide

/-- The same of a SENSOR_READ that `exec` accepts, after none of its commands and after ten. -/
theorem witness_ResetEndsRunningOperation_exec :
    (∀ k, (resetAfter k quick).Accepts ∧
      (resetAfter k quick).world.script = List.replicate k .pass ++ .act .reset :: []) ∧
      ∀ k ∈ [0, 10],
        (((resetAfter k quick).started .sensorRead).hostless.run k).busy = true ∧
          (((resetAfter k quick).started .sensorRead).hostless.run k).seq.length ≠ 0 :=
  ⟨fun _ => ⟨⟨by exact (by decide : short.wf = true), rfl⟩, rfl⟩, by decide⟩

theorem witness_ResetMeetsInvariant : State.reset.cfg.wf = true := by decide

theorem witness_WrongStateTurnedAway :
    (bus ready []).Accepts ∧ (bus ready []).NoReset ∧ wrongState (bus ready []) .init = true ∧
      State.reset.Accepts ∧ State.reset.NoReset ∧ State.reset.Quiet ∧
      ∀ i ∈ [Instr.command 0, .data 0, .clear, .setCursor 0 0], wrongState State.reset i = true :=
  ⟨accepts_ready [], noReset_nil _ rfl, by decide, accepts_reset, noReset_nil _ rfl, .inl rfl, by decide⟩

/-- The first write of CLEAR fails, and the fourth of DATA. -/
theorem witness_TransferStopsAtFailedWrite :
    (∀ n ∈ [0, 3], (bus ready (failAt n)).Accepts ∧ (bus ready (failAt n)).NoReset ∧
      (bus ready (failAt n)).lcd = .ready ∧ n < 4 ∧
      (bus ready (failAt n)).world.busAnswers = List.replicate n .ok ++ .err :: []) ∧
      transferOf ready .clear = some (0x01, false, ready.res) ∧
      (transferOf ready (.data 0x48)).isSome = true :=
  ⟨fun n h => ⟨accepts_ready _, noReset_nil _ rfl, rfl, by simp at h; omega, rfl⟩, by decide, rfl⟩

/-- The first write of INIT fails, and the last. -/
theorem witness_InitStopsAtFailedWrite :
    ∀ n ∈ [0, 23], (bus State.reset (failAt n)).Accepts ∧ (bus State.reset (failAt n)).NoReset ∧
      (bus State.reset (failAt n)).lcd = .uninit ∧ n < 24 ∧
      (bus State.reset (failAt n)).world.busAnswers = List.replicate n .ok ++ .err :: [] :=
  fun n h => ⟨⟨accepts_reset.legal, rfl⟩, noReset_nil _ rfl, rfl, by simp at h; omega, rfl⟩

theorem witness_CommandSendsByte :
    ready4.Accepts ∧ ready4.NoReset ∧ ready4.lcd = .ready ∧ ready4.world.busAnswers = List.replicate 4 .ok ++ [] :=
  ⟨accepts_ready _, noReset_nil _ rfl, rfl, rfl⟩

theorem witness_DataSendsCharacter :
    (at_ ready4 0 255).Accepts ∧ (at_ ready4 0 255).NoReset ∧ (at_ ready4 0 255).lcd = .ready ∧
      (at_ ready4 0 255).world.busAnswers = List.replicate 4 .ok ++ [] :=
  ⟨⟨by decide, rfl⟩, noReset_nil _ rfl, rfl, rfl⟩

theorem witness_ClearSendsCommandAndHomesCursor :
    (at_ ready4 3 4).Accepts ∧ (at_ ready4 3 4).NoReset ∧ (at_ ready4 3 4).lcd = .ready ∧
      (at_ ready4 3 4).world.busAnswers = List.replicate 4 .ok ++ [] :=
  ⟨⟨by decide, rfl⟩, noReset_nil _ rfl, rfl, rfl⟩

/-- The last row, and a row past it. -/
theorem witness_SetCursorSendsAddress :
    ready4.Accepts ∧ ready4.NoReset ∧ ready4.lcd = .ready ∧ ready4.world.busAnswers = List.replicate 4 .ok ++ [] ∧
      3 = min (3 : Byte).toNat (ready4.cfg.numRows - 1) ∧ 3 = min (255 : Byte).toNat (ready4.cfg.numRows - 1) :=
  ⟨accepts_ready _, noReset_nil _ rfl, rfl, rfl, by decide, by decide⟩

theorem witness_InitPerformsSequence :
    (bus State.reset (oks 24)).Accepts ∧ (bus State.reset (oks 24)).NoReset ∧ (bus State.reset (oks 24)).lcd = .uninit ∧
      (bus State.reset (oks 24)).world.busAnswers = List.replicate 24 .ok ++ [] :=
  ⟨⟨by decide, rfl⟩, noReset_nil _ rfl, rfl, rfl⟩

theorem witness_SensorReadOutcome : State.reset.Accepts ∧ State.reset.NoReset := ⟨accepts_reset, noReset_nil _ rfl⟩

theorem witness_TransferFrame :
    transferOf ready4 .clear ≠ none ∧ ready4.NoReset ∧ (∃ t, exec .clear ready4 = .next t) ∧ ready4.busy = false ∧
      ready4.Quiet :=
  ⟨by decide, noReset_nil _ rfl, next_of_accepts _ (accepts_ready _), rfl, .inl rfl⟩

theorem witness_InitFrame :
    State.reset.NoReset ∧ (∃ t, exec .init State.reset = .next t) ∧ State.reset.busy = false ∧ State.reset.Quiet :=
  ⟨noReset_nil _ rfl, next_of_accepts _ accepts_reset, rfl, .inl rfl⟩

theorem witness_SensorReadFrame :
    quick.NoReset ∧ (∃ t, exec .sensorRead quick = .next t) ∧ quick.busy = false ∧ quick.Quiet :=
  ⟨noReset_nil _ rfl, next_of_accepts _ ⟨by decide, rfl⟩, rfl, .inl rfl⟩

/-- An INIT from UNINIT, one turned away, and an operation that is not INIT. -/
theorem witness_OnlyInitMovesLcdState :
    State.reset.Accepts ∧ State.reset.NoReset ∧ (∃ t, exec .init State.reset = .next t) ∧ ready4.Accepts ∧
      ready4.NoReset ∧ (∃ t, exec .init ready4 = .next t) ∧ ∃ t, exec .clear ready4 = .next t :=
  ⟨accepts_reset, noReset_nil _ rfl, next_of_accepts _ accepts_reset, accepts_ready _, noReset_nil _ rfl,
    next_of_accepts _ (accepts_ready _), next_of_accepts _ (accepts_ready _)⟩

theorem witness_ExpanderByteSignals : WireMap.standard.wf = true := by decide

theorem witness_NibbleBytesDifferInEnable : WireMap.standard.wf = true := by decide

/-- The last row itself, and the highest row that can be asked for. -/
theorem witness_RowsClamp :
    ready.cfg.wf = true ∧ ready.cfg.numRows - 1 ≤ (3 : Byte).toNat ∧ ready.cfg.numRows - 1 ≤ (255 : Byte).toNat := by
  decide

theorem witness_SetCursorForgetsCursor :
    ready4.Accepts ∧ ready4.NoReset ∧ ready4.lcd = .ready ∧ (∃ t, exec (.setCursor 1 0) ready4 = .next t) ∧
      ∃ t', exec (.setCursor 1 0) { ready4 with res := { ready4.res with cursorRow := 2, cursorCol := 9 } } = .next t' :=
  ⟨accepts_ready _, noReset_nil _ rfl, rfl, next_of_accepts _ (accepts_ready _), next_of_accepts _ ⟨by decide, rfl⟩⟩

theorem witness_EveryBusByteCarriesBacklight :
    ∃ s t, s.Inv ∧ step s = .next t ∧ decide (Event.busWrite 0x27 0x3C .ok ∈ s.newEvents t) = true := by
  obtain ⟨t, h, he⟩ := next_of_look (o := step ((bus State.reset (oks 24)).withScript [wr 0 1])) (v := true)
    (f := fun t => decide (Event.busWrite 0x27 0x3C .ok ∈ ((bus State.reset (oks 24)).withScript [wr 0 1]).newEvents t))
    (by decide)
  exact ⟨(bus State.reset (oks 24)).withScript [wr 0 1], t, ⟨by decide, rfl, rfl, rfl, rfl, rfl, rfl, by decide,
    fun _ => ⟨rfl, rfl⟩, by decide, by decide, ⟨rfl, rfl⟩⟩, h, he⟩

/-- A measurement about to be made. -/
def measuring (o : Measured) : State := (pin quick (samplesOf 4 0 o)).withSeq [.poll 0 0]

/-- The shortest and the longest duration, and the timeout. -/
theorem witness_MeasureOutcomes :
    quick.cfg.wf = true ∧ (∀ o, (measuring o).NoReset ∧ (measuring o).seq = .poll 0 0 :: []) ∧
      0 < quick.cfg.tMeasTimeout ∧ 3 < quick.cfg.tMeasTimeout ∧
      ∀ o ∈ [.duration 0, .duration 3, .timeout],
        (measuring o).world.pinLevels = samplesOf (measuring o).cfg.tMeasTimeout 0 o ++ [] :=
  ⟨by decide, fun _ => ⟨noReset_nil _ rfl, rfl⟩, by decide, by decide, by decide⟩

/-- The two shortest trains, and a train with every measurement made. -/
theorem witness_ReadFollowsPulseTrain :
    (∀ os, (pin quick (readPins .low os)).Accepts ∧ (pin quick (readPins .low os)).NoReset ∧
      (pin quick (readPins .low os)).world.pinLevels = .low :: trainSamples 4 0 os ++ []) ∧
      IsTrain 4 85 [.timeout] ∧ IsTrain 4 85 [.duration 3, .timeout] ∧ IsTrain 4 85 (List.replicate 85 (.duration 0)) := by
  have legal : short.wf = true := by decide
  refine ⟨fun os => ⟨⟨legal, rfl⟩, noReset_nil _ rfl, (List.append_nil _).symm⟩, rfl, ⟨by decide, rfl⟩, ?_⟩
  repeat (refine ⟨by decide, ?_⟩)
  rfl

/-- The frame of P3 and its pulses. -/
theorem witness_CompleteTrainSpellsFrame :
    Config.defaults.wf = true ∧ State.reset.res.bitCount = 0 ∧
      ∀ k < 40, Frame.streamBit ⟨0x28, 0x00, 0x14, 0x00, 0x3C⟩ k =
        decide (Config.defaults.tBitThreshold <
          (fun i => if Frame.streamBit ⟨0x28, 0x00, 0x14, 0x00, 0x3C⟩ ((i - 4) / 2) then 70 else 26) (4 + 2 * k)) := by
  decide +kernel

theorem witness_BitsBeforeTimeout :
    Config.defaults.wf = true ∧ State.reset.res.bitCount = 0 ∧ (0 : Nat) < 85 ∧ (84 : Nat) < 85 := by decide

theorem witness_SilentSensorTimesOut :
    (pin State.reset (List.replicate 256 .high)).Accepts ∧ (pin State.reset (List.replicate 256 .high)).NoReset ∧
      (pin State.reset (List.replicate 256 .high)).world.pinLevels = List.replicate (1 + 255) .high ++ [] :=
  ⟨⟨by decide, rfl⟩, noReset_nil _ rfl, (List.append_nil _).symm⟩

theorem witness_ReadTraceShape : quick.Accepts ∧ quick.NoReset ∧ ∃ t, exec .sensorRead quick = .next t :=
  ⟨⟨by decide, rfl⟩, noReset_nil _ rfl, next_of_accepts _ ⟨by decide, rfl⟩⟩

theorem witness_ReadPhases : quick.Accepts ∧ quick.NoReset := ⟨⟨by decide, rfl⟩, noReset_nil _ rfl⟩

theorem witness_ReadSamplesBounded : quick.Accepts ∧ ∃ t, exec .sensorRead quick = .next t :=
  ⟨⟨by decide, rfl⟩, next_of_accepts _ ⟨by decide, rfl⟩⟩

theorem witness_BusyUntilLastMove : State.reset.Accepts ∧ State.reset.NoReset ∧ ready4.Accepts ∧ ready4.NoReset :=
  ⟨accepts_reset, noReset_nil _ rfl, accepts_ready _, noReset_nil _ rfl⟩

theorem witness_ResultsStayUntilCompletion : initRunning.busy = true ∧ initRunning.tick.busy = true := by decide

theorem witness_HostDoesNotDisturbOperation :
    (bus State.reset (oks 24)).Accepts ∧ ((bus State.reset (oks 24)).withScript [wr 0 0x4803, .pass]).NoReset ∧
      ∃ t, exec .init ((bus State.reset (oks 24)).withScript [wr 0 0x4803, .pass]) = .next t :=
  ⟨⟨by decide, rfl⟩, by unfold State.NoReset; decide, next_of_accepts _ ⟨by decide, rfl⟩⟩

theorem witness_LogsOnlyGrow : ∃ t, step (offering 0x00004803) = .next t ∧ t.log.trace.length = 8 :=
  next_of_look (f := fun t => t.log.trace.length) (by decide)

theorem witness_DelaysLastAtLeastTheirBound : ∃ t, step (offering 0x00004803) = .next t ∧ t.log.waits.length = 4 :=
  next_of_look (f := fun t => t.log.waits.length) (by decide)

theorem witness_StepKeepsInvariant : State.reset.Inv ∧ ∃ t, step State.reset = .next t := ⟨inv_reset, _, rfl⟩

/-- No character, and two. -/
theorem witness_WriteTextSendsEveryCharacter :
    ∀ cs ∈ ([[], [0x48, 0x49]] : List (List Byte)), (bus ready (oks (4 * cs.length))).Accepts ∧
      (bus ready (oks (4 * cs.length))).NoReset ∧ (bus ready (oks (4 * cs.length))).lcd = .ready ∧
      (bus ready (oks (4 * cs.length))).world.busAnswers = List.replicate (4 * cs.length) .ok ++ [] :=
  fun _ _ => ⟨accepts_ready _, noReset_nil _ rfl, rfl, (List.append_nil _).symm⟩

/-- The first write of the first character fails, and the last write of the second. -/
theorem witness_WriteTextStopsAtFailure :
    ∀ p ∈ [(0, 0), (1, 3)], (bus ready (failAt (4 * p.1 + p.2))).Accepts ∧
      (bus ready (failAt (4 * p.1 + p.2))).NoReset ∧
      (bus ready (failAt (4 * p.1 + p.2))).lcd = .ready ∧ p.2 < 4 ∧
      (bus ready (failAt (4 * p.1 + p.2))).world.busAnswers =
        List.replicate (4 * p.1 + p.2) .ok ++ .err :: [] :=
  fun p h => ⟨accepts_ready _, noReset_nil _ rfl, rfl, by simp at h; rcases h with rfl | rfl <;> decide, rfl⟩

end Sys2Proof.Tests
end

/-! ### Refusal of a configuration that is not legal (00_scope.md R9) -/

namespace Sys2Proof.Machine

/-- The number of rows and the counts of a read in a legal configuration (00_scope.md R8). -/
theorem counts_of_wf {c : Config} (h : c.wf = true) :
    c.nMeas = 85 ∧ c.nPreamble = 4 ∧ c.nBits = 40 ∧ 1 ≤ c.numRows ∧ c.numRows ≤ 4 := by
  simp only [Config.wf, Bool.and_eq_true, beq_iff_eq, decide_eq_true_eq] at h
  obtain ⟨hm, hp, hb, ⟨hlo, hhi⟩, -⟩ := h
  exact ⟨hm, hp, hb, hlo, hhi⟩

theorem wf_false_of_not_nodup {c : Config} (h : ¬ c.wireMap.positions.Nodup) : c.wf = false := by
  simp [Config.wf, WireMap.wf, h]

theorem step_of_wf_false {s : State} (h : s.cfg.wf = false) : step s = .refused .illFormedConfig := by
  simp [step, h]

theorem exec_of_wf_false {s : State} (h : s.cfg.wf = false) (i : Instr) :
    exec i s = .refused .illFormedConfig := by
  simp [exec_eq_issue, State.issue, h]

/-- Settles O9: distinctness of the positions is part of the configuration's check, which the step and the issue of every
operation make first. -/
theorem illFormedWireMapRefused : Obligations.IllFormedWireMapRefused := by
  intro s h
  have hwf : s.cfg.wf = false := wf_false_of_not_nodup h
  exact ⟨step_of_wf_false hwf, exec_of_wf_false hwf⟩

/-! ### What a step can do -/

/-- An issue that answers a next state drops the word or performs the operation. -/
theorem issue_next_cases {s u t : State} (h : s.issue u = .next t) :
    s.busy = true ∧ t = s.withOvr true ∨ s.busy = false ∧ t = u.resume := by
  rcases issue_cases s u with ⟨-, hi⟩ | ⟨-, hb, hi⟩ | ⟨-, hb, hi⟩ <;> rw [hi] at h
  · cases h
  · cases h; exact .inl ⟨hb, rfl⟩
  · cases h; exact .inr ⟨hb, rfl⟩

/-- A word written to an idle engine is the operation it decodes to, or is turned away. -/
theorem runWord_next_cases {w : Word} {s t : State} (hb : s.busy = false) (h : runWord w s = .next t) :
    (∃ i, t = (s.started i).resume) ∨ t = (s.turnedAway .illegalOp).resume := by
  have resumed {u : State} (hi : s.issue u = .next t) : t = u.resume := by
    rcases issue_next_cases hi with ⟨hb', -⟩ | ⟨-, ht⟩
    · rw [hb] at hb'; cases hb'
    · exact ht
  unfold runWord at h
  split at h
  · next i _ => rw [exec_eq_issue] at h; exact .inl ⟨i, resumed h⟩
  · exact .inr (resumed h)

/-- A turn of the host that starts no operation is an act, or is let pass. -/
theorem otherTurn_cases (s : State) : (∃ a, s.otherTurn = s.popTurn.hostAct a) ∨ s.otherTurn = s.popTurn := by
  unfold State.otherTurn
  split
  · exact .inl ⟨_, rfl⟩
  · exact .inr rfl

/-- All that a step can do: bring the running operation to its end, or take the host's next turn. -/
theorem step_next_cases {s t : State} (h : step s = .next t) :
    s.busy = true ∧ t = s.resume ∨
      s.busy = false ∧
        ((∃ i, t = (s.popTurn.started i).resume) ∨ t = (s.popTurn.turnedAway .illegalOp).resume ∨
          (∃ a, t = s.popTurn.hostAct a) ∨ t = s.popTurn) := by
  unfold step at h
  split at h
  · split at h
    · next hb => cases h; exact .inl ⟨hb, rfl⟩
    · next hb =>
      rw [Bool.not_eq_true] at hb
      refine .inr ⟨hb, ?_⟩
      split at h
      · rcases runWord_next_cases (s := s.popTurn) hb h with hi | ht
        · exact .inl hi
        · exact .inr (.inl ht)
      · cases h; exact .inr (.inr (otherTurn_cases s))
  · cases h

/-! ### The logs -/

/-- Whether an event is a `Delay`. -/
def Event.isDelay : Event → Bool
  | .delay _ => true
  | _ => false

/-- The log `l'` is `l` with entries added behind; the added waits last at least their bounds, which are those of the
added delay events in order (00_scope.md R12, R13). -/
def Log.GrowsTo (l l' : Log) : Prop :=
  ∃ es ws rs, l' = { trace := l.trace ++ es, waits := l.waits ++ ws, reads := l.reads ++ rs } ∧
    (∀ w ∈ ws, w.atLeast ≤ w.actual) ∧ ws.map (fun w => Event.delay w.atLeast) = es.filter Event.isDelay

theorem Log.GrowsTo.refl (l : Log) : l.GrowsTo l := ⟨[], [], [], by simp, by simp, rfl⟩

theorem Log.GrowsTo.trans {l₁ l₂ l₃ : Log} (h : l₁.GrowsTo l₂) (h' : l₂.GrowsTo l₃) : l₁.GrowsTo l₃ := by
  obtain ⟨es, ws, rs, rfl, hle, hmap⟩ := h
  obtain ⟨es', ws', rs', rfl, hle', hmap'⟩ := h'
  refine ⟨es ++ es', ws ++ ws', rs ++ rs', by simp, fun w hw => ?_, by simp [hmap, hmap']⟩
  rcases List.mem_append.mp hw with hw | hw
  · exact hle w hw
  · exact hle' w hw

theorem emit_growsTo (s : State) {e : Event} (h : e.isDelay = false) : s.log.GrowsTo (s.emit e).log :=
  ⟨[e], [], [], by simp, by simp, by simp [h]⟩

theorem answerRead_growsTo (s : State) (w : Word) : s.log.GrowsTo (s.answerRead w).log :=
  ⟨[], [], [w], by simp, by simp, rfl⟩

theorem elapse_growsTo (s : State) (t : Nat) : s.log.GrowsTo (s.elapse t).log :=
  ⟨[.delay t], [{ atLeast := t, actual := t + Config.freeExtraDelay s.world.draws }], [], by simp, by simp, rfl⟩

theorem hostAct_growsTo (s : State) (a : HostAct) : s.log.GrowsTo (s.hostAct a).log := by
  cases a with
  | read addr width =>
    simp only [State.hostAct, State.hostRead]
    split
    · exact answerRead_growsTo s _
    · exact .refl _
  | write addr width w =>
    have keep : (s.hostWrite addr width w).log = s.log := by
      simp only [State.hostWrite, State.writeStatus]
      split
      · split <;> rfl
      · split <;> rfl
      · rfl
    rw [State.hostAct, keep]
    exact .refl _
  | reset => exact .refl _

theorem hostTurns_growsTo (ts : List Turn) : ∀ s : State, s.log.GrowsTo (s.hostTurns ts).log := by
  induction ts with
  | nil => exact fun s => .refl _
  | cons u ts ih =>
    intro s
    cases u with
    | pass => exact .refl _
    | waitIdle => exact .refl _
    | act a =>
      have hact : s.log.GrowsTo ((s.withScript ts).hostAct a).log := hostAct_growsTo (s.withScript ts) a
      simp only [State.hostTurns]
      split
      · exact hact.trans (ih _)
      · exact hact

theorem performPoll_log (s : State) (i n : Nat) :
    (s.performPoll i n).log = (s.popLevel.emit (.sample s.nextLevel)).log := by
  simp only [State.performPoll]
  split
  · rfl
  · split <;> rfl

/-- A command adds its port event, if it has one, and a wait with each delay. -/
theorem perform_growsTo (c : Cmd) (s : State) : s.log.GrowsTo (s.perform c).log := by
  have emitted {u : State} (hu : u.log = s.log) {e : Event} (he : e.isDelay = false) : s.log.GrowsTo (u.emit e).log :=
    hu ▸ emit_growsTo u he
  cases c with
  | busWrite b =>
    simp only [State.perform, State.performWrite]
    split
    · exact emitted s.popAnswer_log rfl
    · exact emitted s.popAnswer_log rfl
  | delay t => exact elapse_growsTo s t
  | setDir d => exact emitted rfl rfl
  | pinWrite l => exact emitted rfl rfl
  | ackSample => exact emitted s.popLevel_log rfl
  | poll i n =>
    rw [State.perform, performPoll_log]
    exact emitted s.popLevel_log rfl
  | enterDec d => exact .refl _
  | clearFrame => exact .refl _
  | validate => exact .refl _
  | endWith e => exact .refl _
  | initDone => exact .refl _
  | readDone => exact .refl _

theorem tick_growsTo (s : State) : s.log.GrowsTo s.tick.log := by
  have hgap : s.log.GrowsTo s.gap.log := hostTurns_growsTo _ s
  refine hgap.trans ?_
  unfold State.tick State.advance
  split
  · exact .refl _
  · exact perform_growsTo _ (s.gap.withSeq _)

theorem resume_growsTo (s : State) : s.log.GrowsTo s.resume.log :=
  run_induct (fun u => s.log.GrowsTo u.log) (fun u _ h => h.trans (tick_growsTo u)) _ s (.refl _)

theorem step_growsTo {s t : State} (h : step s = .next t) : s.log.GrowsTo t.log := by
  rcases step_next_cases h with ⟨-, rfl⟩ | ⟨-, ⟨i, rfl⟩ | rfl | ⟨a, rfl⟩ | rfl⟩
  · exact resume_growsTo s
  · have := resume_growsTo (s.popTurn.started i)
    rwa [started_log] at this
  · exact resume_growsTo (s.popTurn.turnedAway .illegalOp)
  · exact hostAct_growsTo s.popTurn a
  · exact .refl _

/-- Settles O53: what a step does to the logs is to add entries behind. -/
theorem logsOnlyGrow : Obligations.LogsOnlyGrow := by
  intro s t h
  obtain ⟨es, ws, rs, hlog, -, -⟩ := step_growsTo h
  rw [hlog]
  exact ⟨⟨es, rfl⟩, ⟨ws, rfl⟩, ⟨rs, rfl⟩⟩

/-- Settles O54: each delay adds its event and its wait together, and every other event adds no wait. -/
theorem delaysLastAtLeastTheirBound : Obligations.DelaysLastAtLeastTheirBound := by
  intro s t h
  obtain ⟨es, ws, rs, hlog, hle, hmap⟩ := step_growsTo h
  have hws : t.log.waits.drop s.log.waits.length = ws := by simp [hlog]
  have hes : s.newEvents t = es := by simp [State.newEvents, hlog]
  rw [hws, hes, hmap]
  exact ⟨hle, List.filter_congr fun e _ => by cases e <;> rfl⟩

/-! ### LCD transfers in READY -/

theorem xferCmds_isPlain (c : Config) (bl : Bool) (v : Byte) (rs : Bool) : (xferCmds c bl v rs).all Cmd.isPlain := rfl

theorem busWrites_xferCmds (c : Config) (bl : Bool) (v : Byte) (rs : Bool) : busWrites (xferCmds c bl v rs) = 4 := rfl

theorem okEvents_xferCmds (c : Config) (bl : Bool) (v : Byte) (rs : Bool) :
    (xferCmds c bl v rs).map (Cmd.okEvent c) = xferEvents c bl v rs := rfl

/-- An LCD operation accepted in READY, all of whose writes succeed. -/
theorem resume_lcdStart_of_ready (s : State) (w : Results) (cs : List Cmd) (rest : List BusAnswer) (hn : s.NoReset)
    (hl : s.lcd = .ready) (hp : cs.all Cmd.isPlain)
    (hb : s.world.busAnswers = List.replicate (busWrites cs) .ok ++ rest) :
    (s.lcdStart w cs).resume.res = { w with lastErr := .none } ∧ (s.lcdStart w cs).resume.busy = false ∧
      (s.lcdStart w cs).resume.lcd = .ready ∧
      (s.lcdStart w cs).resume.log.trace = s.log.trace ++ cs.map (Cmd.okEvent s.cfg) ∧
      (s.lcdStart w cs).resume.world.busAnswers = rest := by
  have hstart : s.lcdStart w cs = s.begin w (cs ++ [.endWith .none]) := if_pos hl
  obtain ⟨hres, hbusy, hlcd, htrace, hans⟩ :=
    resume_transfers (s.begin w (cs ++ [.endWith .none])) cs (.endWith .none) rest hn rfl hp hb (.inl rfl)
  rw [hstart]
  exact ⟨hres, hbusy, hlcd.trans hl, htrace, hans⟩

/-! ### The DDRAM address -/

theorem rowBase_ofNat {e : Nat} (h : e < 4) : rowBase (BitVec.ofNat 2 e) = [0x00, 0x40, 0x14, 0x54].getD e 0 := by
  interval_cases e <;> rfl

/-- Setting bit 7 over a 7-bit address adds 128 (30_encoding.md R89). -/
theorem cmdSetDdram_eq_ofNat (a : BitVec 7) : cmdSetDdram a = BitVec.ofNat 8 (128 + a.toNat) := by
  have ha : a.toNat < 2 ^ 7 := a.isLt
  have hor : 128 + a.toNat = 128 ||| a.toNat := Nat.two_pow_add_eq_or_of_lt ha 1
  apply BitVec.eq_of_toNat_eq
  simp only [cmdSetDdram, BitVec.toNat_or, BitVec.toNat_setWidth, BitVec.toNat_ofNat]
  rw [Nat.mod_eq_of_lt (a := a.toNat) (by omega), Nat.mod_eq_of_lt (a := 128 + a.toNat) (by omega)]
  exact hor.symm

theorem ddram_toNat (e : BitVec 2) (col : Byte) : (ddram e col).toNat = (rowBase e + col.toNat) % 128 := by
  simp [ddram]

/-- Settles O29: a transfer of one byte in READY, whose address is the row's base and the column. -/
theorem setCursorSendsAddress : Obligations.SetCursorSendsAddress := by
  rintro s r c rest _ ha hn hl hb rfl
  obtain ⟨-, -, -, -, hrows⟩ := counts_of_wf ha.legal
  have hbyte : cmdSetDdram (ddram (rowEff s.cfg r) c) = BitVec.ofNat 8
      (128 + ([0x00, 0x40, 0x14, 0x54].getD (min r.toNat (s.cfg.numRows - 1)) 0 + c.toNat) % 128) := by
    rw [cmdSetDdram_eq_ofNat, ddram_toNat, rowEff, rowBase_ofNat (by omega)]
  refine ⟨_, exec_of_accepts _ s ha, ?_⟩
  rw [← hbyte, ← okEvents_xferCmds]
  exact resume_lcdStart_of_ready s _ _ rest hn hl (xferCmds_isPlain _ _ _ _) hb

end Sys2Proof.Machine

/-! ### Every step keeps the invariant -/

namespace Sys2Proof.Machine

/-- The cursor has a clamped row, and is at home until INIT has completed (10_state.md R25, 41_lcd_controller.md R141). -/
structure Results.CursorOk (c : Config) (lcd : LcdState) (r : Results) : Prop where
  row : r.cursorRow.toNat < c.numRows
  home : lcd ≠ .ready → r.cursorRow = 0 ∧ r.cursorCol = 0

/-- What an operation's end has to find, apart from the cursor: the decoder IDLE, the pin released, the reading invariant
(`rd`) and at most 40 bits in the working copy (10_state.md R27, R29, R32, R35). -/
structure MayEnd (d : DecState) (p : PinDir) (rd : Prop) (b : Nat) : Prop where
  decIdle : d = .idle
  released : p = .input
  reading : rd
  bits : b ≤ 40

/-- Whether every end the remaining commands of an operation can come to is one that `MayEnd` allows, when they begin with
the decoder in `d`, the pin in `p`, at most `b` bits in the working copy, and `rd` standing for the reading invariant of
the working copy. A bus write can end the operation and go on; `readDone` makes the decoder IDLE itself. -/
def Lands (c : Config) (d : DecState) (p : PinDir) (rd : Prop) (b : Nat) : List Cmd → Prop
  | [] => False
  | .busWrite _ :: cs => MayEnd d p rd b ∧ Lands c d p rd b cs
  | .delay _ :: cs => Lands c d p rd b cs
  | .setDir q :: cs => Lands c d q rd b cs
  | .pinWrite l :: cs => l = .low ∧ Lands c d p rd b cs
  | .enterDec e :: cs => Lands c e p rd b cs
  | .clearFrame :: cs => Lands c d p False 0 cs
  | .ackSample :: cs => Lands c d p rd b cs
  | .poll i _ :: cs => i ≤ 84 ∧ Lands c d p False (b + if carriesBit c i then 1 else 0) cs
  | .validate :: cs => Lands c d p True b cs
  | .endWith _ :: _ => MayEnd d p rd b
  | .initDone :: _ => MayEnd d p rd b
  | .readDone :: _ => MayEnd .idle p rd b

/-- What holds of the engine while an operation runs. -/
structure State.Running (s : State) : Prop where
  legal : s.cfg.wf = true
  latchLow : s.pinOut = .low
  backlight : s.backlight = s.cfg.backlightInit
  index : s.measIndex.toNat ≤ 84
  cursor : s.work.CursorOk s.cfg s.lcd
  lands : Lands s.cfg s.dec s.pinDir (s.work.ReadingOk s.cfg) s.work.bitCount.toNat s.seq

/-! #### The remaining commands -/

theorem MayEnd.mono {d : DecState} {p : PinDir} {rd rd' : Prop} {b b' : Nat} (hrd : rd → rd') (hb : b' ≤ b)
    (h : MayEnd d p rd b) : MayEnd d p rd' b' :=
  ⟨h.decIdle, h.released, hrd h.reading, hb.trans h.bits⟩

/-- Commands that land do so from fewer bits, and with the reading invariant where they did without. -/
theorem Lands.mono {c : Config} {cs : List Cmd} {d : DecState} {p : PinDir} {rd rd' : Prop} {b b' : Nat} (hrd : rd → rd')
    (hb : b' ≤ b) (h : Lands c d p rd b cs) : Lands c d p rd' b' cs := by
  induction cs generalizing d p rd rd' b b' with
  | nil => exact h
  | cons x cs ih =>
    cases x with
    | busWrite _ =>
      obtain ⟨hend, h⟩ := h
      exact ⟨hend.mono hrd hb, ih hrd hb h⟩
    | delay _ => exact ih (d := d) hrd hb h
    | setDir q => exact ih (p := q) hrd hb h
    | pinWrite l =>
      obtain ⟨hlow, h⟩ := h
      exact ⟨hlow, ih hrd hb h⟩
    | enterDec e => exact ih (d := e) hrd hb h
    | clearFrame => exact h
    | ackSample => exact ih (d := d) hrd hb h
    | poll i _ =>
      obtain ⟨hi, h⟩ := h
      exact ⟨hi, ih id (Nat.add_le_add_right hb _) h⟩
    | validate => exact ih (d := d) id hb h
    | endWith _ => exact MayEnd.mono hrd hb h
    | initDone => exact MayEnd.mono hrd hb h
    | readDone => exact MayEnd.mono hrd hb h

/-- A timeout skips the remaining measurements (42_sensor_decoder.md R185); the commands after them land all the same. -/
theorem Lands.dropPolls {c : Config} {cs : List Cmd} {d : DecState} {p : PinDir} {rd : Prop} {b : Nat}
    (h : Lands c d p rd b cs) : Lands c d p rd b (cs.dropWhile Cmd.isPoll) := by
  induction cs with
  | nil => exact h
  | cons x cs ih =>
    cases x with
    | poll i _ => exact ih (h.2.mono False.elim (Nat.le_add_right _ _))
    | _ => exact h

theorem lands_plain_append {c : Config} {cs tail : List Cmd} {rd : Prop} {b : Nat} (hp : cs.all Cmd.isPlain) (hrd : rd)
    (hb : b ≤ 40) (h : Lands c .idle .input rd b tail) : Lands c .idle .input rd b (cs ++ tail) := by
  induction cs with
  | nil => exact h
  | cons x cs ih =>
    rw [List.all_cons, Bool.and_eq_true] at hp
    obtain ⟨hx, hcs⟩ := hp
    cases x with
    | busWrite _ => exact ⟨⟨rfl, rfl, hrd, hb⟩, ih hcs⟩
    | delay _ => exact ih hcs
    | _ => cases hx

/-- Measurements capture a bit for each index that carries one. -/
theorem lands_polls_append {c : Config} {is : List Nat} {tail : List Cmd} {d : DecState} {p : PinDir} {b : Nat}
    (his : ∀ i ∈ is, i ≤ 84) (h : Lands c d p False (b + is.countP (carriesBit c)) tail) :
    Lands c d p False b (is.map (fun i => .poll i 0) ++ tail) := by
  induction is generalizing b with
  | nil => exact h
  | cons i is ih =>
    refine ⟨his i (by simp), ih (fun j hj => his j (by simp [hj])) ?_⟩
    rwa [List.countP_cons, Nat.add_comm (is.countP _), ← Nat.add_assoc] at h

/-- A whole read carries 40 bits (42_sensor_decoder.md R184). -/
theorem countP_carriesBit {c : Config} (h : c.wf = true) : (List.range c.nMeas).countP (carriesBit c) = 40 := by
  obtain ⟨hm, hp, hb, -, -⟩ := counts_of_wf h
  have hcarries : carriesBit c = fun i => decide (4 ≤ i) && decide (i % 2 = 0) && decide (i ≤ 4 + 2 * (40 - 1)) := by
    funext i; rw [carriesBit, hp, hb]
  rw [hm, hcarries]
  decide

/-- The commands of a read land from every state: the frame is cleared, 40 bits at most are captured, and Validate makes
the reading invariant hold before the read ends. -/
theorem lands_readCmds {c : Config} (h : c.wf = true) (d : DecState) (p : PinDir) (rd : Prop) (b : Nat) :
    Lands c d p rd b (readCmds c) := by
  have his : ∀ i ∈ List.range c.nMeas, i ≤ 84 := by
    intro i hi
    rw [(counts_of_wf h).1, List.mem_range] at hi
    omega
  have hpolls : Lands c .readBits .input False 0
      ((List.range c.nMeas).map (fun i => .poll i 0) ++ [.enterDec .validate, .validate, .setDir .input, .readDone]) := by
    refine lands_polls_append his ?_
    rw [countP_carriesBit h]
    exact ⟨rfl, rfl, trivial, Nat.le_refl _⟩
  rw [readCmds, List.append_assoc]
  exact ⟨rfl, hpolls⟩

/-! #### The working copy -/

/-- Validate makes the reading invariant hold (10_state.md R32, 42_sensor_decoder.md R193). -/
theorem validated_readingOk {c : Config} (h : c.wf = true) (w : Results) : (w.validated c).ReadingOk c := by
  obtain ⟨-, -, hbits, -, -⟩ := counts_of_wf h
  rw [Results.validated, hbits]
  split
  · next hok => exact ⟨hok.1, hok.2, rfl, rfl⟩
  · exact ⟨rfl, rfl⟩

theorem validated_bitCount (c : Config) (w : Results) : (w.validated c).bitCount = w.bitCount := by
  unfold Results.validated; split <;> rfl

theorem validated_cursorOk {c : Config} {lcd : LcdState} {w : Results} (h : w.CursorOk c lcd) :
    (w.validated c).CursorOk c lcd := by
  unfold Results.validated
  split <;> exact ⟨h.row, h.home⟩

theorem measured_bitCount_le (c : Config) (i n : Nat) (w : Results) :
    (w.measured c i n).bitCount.toNat ≤ w.bitCount.toNat + if carriesBit c i then 1 else 0 := by
  unfold Results.measured
  split
  · simp only [BitVec.toNat_add]
    exact Nat.mod_le _ _
  · exact Nat.le_refl _

theorem measured_cursorOk {c : Config} {lcd : LcdState} {w : Results} (i n : Nat) (h : w.CursorOk c lcd) :
    (w.measured c i n).CursorOk c lcd := by
  unfold Results.measured
  split <;> exact ⟨h.row, h.home⟩

/-! #### A move of a running operation -/

/-- The engine right after reset meets the invariant, under every legal configuration (10_state.md R49). -/
theorem hardReset_inv {s : State} (h : s.cfg.wf = true) : s.hardReset.Inv where
  legal := h
  idle := rfl
  done := rfl
  decIdle := rfl
  released := rfl
  latchLow := rfl
  backlight := rfl
  row := by obtain ⟨-, -, -, hrows, -⟩ := counts_of_wf h; exact hrows
  cursorHome := fun _ => ⟨rfl, rfl⟩
  bits := Nat.zero_le _
  index := Nat.zero_le _
  reading := ⟨rfl, rfl⟩

/-- The invariant does not speak of `ovr`, the answered reads or the host's turns. -/
theorem inv_of_hostless {s t : State} (h : t.hostless = s.hostless) (hs : s.Inv) : t.Inv := by
  have hs' : s.hostless.Inv := { hs with }
  rw [← h] at hs'
  exact { hs' with }

theorem running_of_hostless {s t : State} (h : t.hostless = s.hostless) (hs : s.Running) : t.Running := by
  have hs' : s.hostless.Running := { hs with }
  rw [← h] at hs'
  exact { hs' with }

/-- The commit of a working copy that has all the invariant asks for. -/
theorem commit_inv {s : State} (hs : s.Running)
    (h : MayEnd s.dec s.pinDir (s.work.ReadingOk s.cfg) s.work.bitCount.toNat) : s.commit.Inv where
  legal := hs.legal
  idle := rfl
  done := rfl
  decIdle := h.decIdle
  released := h.released
  latchLow := hs.latchLow
  backlight := hs.backlight
  row := hs.cursor.row
  cursorHome := hs.cursor.home
  bits := h.bits
  index := hs.index
  reading := h.reading

theorem raise_inv {s : State} (hs : s.Running) (e : ErrCode)
    (h : MayEnd s.dec s.pinDir (s.work.ReadingOk s.cfg) s.work.bitCount.toNat) : (s.raise e).Inv :=
  commit_inv (s := s.withWork { s.work with lastErr := e }) { hs with cursor := ⟨hs.cursor.row, hs.cursor.home⟩ } h

theorem popAnswer_eq_world (s : State) : ∃ w, s.popAnswer = { s with world := w } := by
  unfold State.popAnswer; split <;> exact ⟨_, rfl⟩

theorem popLevel_eq_world (s : State) : ∃ w, s.popLevel = { s with world := w } := by
  unfold State.popLevel; split <;> exact ⟨_, rfl⟩

theorem performWrite_inv_or_running {s : State} (b : Byte) (hs : (s.withSeq (.busWrite b :: s.seq)).Running) :
    (s.performWrite b).Inv ∨ (s.performWrite b).Running := by
  obtain ⟨hend, hlands⟩ := hs.lands
  have running (e : Event) : (s.popAnswer.emit e).Running := by
    obtain ⟨w, hw⟩ := popAnswer_eq_world s
    rw [hw]
    exact { hs with lands := hlands }
  unfold State.performWrite
  split
  · exact .inr (running _)
  · exact .inl (raise_inv (running _) _ (by simpa using hend))

theorem performPoll_running {s : State} (i n : Nat) (hs : (s.withSeq (.poll i n :: s.seq)).Running) :
    (s.performPoll i n).Running := by
  obtain ⟨hi, hlands⟩ := hs.lands
  have hindex : (BitVec.ofNat 7 i).toNat ≤ 84 := by
    rw [BitVec.toNat_ofNat]
    exact (Nat.mod_le _ _).trans hi
  obtain ⟨w, hw⟩ := popLevel_eq_world s
  simp only [State.performPoll, hw]
  split
  · exact
      { hs with
        index := hindex
        cursor := measured_cursorOk i n hs.cursor
        lands := hlands.mono False.elim (measured_bitCount_le s.cfg i n s.work) }
  · split
    · exact { hs with index := hindex, lands := (hlands.mono False.elim (Nat.le_add_right _ _)).dropPolls }
    · exact { hs with index := hindex, lands := hs.lands }

/-- A command leaves the operation running, or ends it with the invariant. -/
theorem perform_inv_or_running {s : State} (c : Cmd) (hs : (s.withSeq (c :: s.seq)).Running) :
    (s.perform c).Inv ∨ (s.perform c).Running := by
  have hlands := hs.lands
  cases c with
  | busWrite b => exact performWrite_inv_or_running b hs
  | delay t => exact .inr { hs with lands := hlands }
  | setDir d => exact .inr { hs with lands := hlands }
  | pinWrite l => exact .inr { hs with latchLow := hlands.1, lands := hlands.2 }
  | enterDec d => exact .inr { hs with lands := hlands }
  | clearFrame =>
    exact .inr
      { hs with cursor := ⟨hs.cursor.row, hs.cursor.home⟩, lands := Lands.mono False.elim (Nat.le_refl 0) hlands }
  | ackSample =>
    obtain ⟨w, hw⟩ := popLevel_eq_world s
    rw [State.perform, State.performAck, hw]
    exact .inr { hs with cursor := ⟨hs.cursor.row, hs.cursor.home⟩, lands := hlands }
  | poll i n => exact .inr (performPoll_running i n hs)
  | validate =>
    have hbits : (s.work.validated s.cfg).bitCount.toNat ≤ s.work.bitCount.toNat := by rw [validated_bitCount]
    exact .inr
      { hs with
        cursor := validated_cursorOk hs.cursor
        lands := Lands.mono (fun _ => validated_readingOk hs.legal s.work) hbits hlands }
  | endWith e => exact .inl (raise_inv hs e hlands)
  | initDone =>
    exact .inl (raise_inv (s := (s.withSeq (.initDone :: s.seq)).withLcd .ready)
      { hs with cursor := ⟨hs.cursor.row, fun h => absurd rfl h⟩ } .none hlands)
  | readDone =>
    exact .inl (commit_inv (s := (s.withSeq (.readDone :: s.seq)).withDec .idle) { hs with } hlands)

theorem advance_inv_or_running {s : State} (hs : s.Running) : s.advance.Inv ∨ s.advance.Running := by
  unfold State.advance
  split
  · exact .inr hs
  · next c cs hseq =>
    have hlands := hs.lands
    rw [hseq] at hlands
    exact perform_inv_or_running c { hs with lands := hlands }

/-- A move of a running operation: the host may reset the engine, or leaves the operation to its next command. -/
theorem tick_inv_or_running {s : State} (hs : s.Running) : s.tick.Inv ∨ s.tick.Running := by
  rcases gap_cases s with hgap | ⟨u, -, hgap, hu⟩
  · exact advance_inv_or_running (running_of_hostless hgap hs)
  · have hlegal : u.cfg.wf = true := by rw [cfg_of_hostless u s hu]; exact hs.legal
    rw [State.tick, hgap]
    exact .inl (hardReset_inv hlegal)

/-- A running operation, brought to its end, leaves the invariant: with no command left, it no longer runs. -/
theorem resume_inv {s : State} (hs : s.Running) : s.resume.Inv := by
  have hend : s.resume.Inv ∨ s.resume.Running := by
    refine run_induct (fun u => u.Inv ∨ u.Running) (fun u hseq hu => ?_) _ s (.inr hs)
    rcases hu with hu | hu
    · exact absurd hu.done hseq
    · exact tick_inv_or_running hu
  rcases hend with hinv | hrun
  · exact hinv
  · have hlands := hrun.lands
    rw [resume_seq_nil] at hlands
    exact hlands.elim

/-! #### Acceptance -/

/-- An operation accepted between operations runs, when its working copy's cursor and its commands are as they should. -/
theorem begin_running {s : State} (hs : s.Inv) {w : Results} {cs : List Cmd} (hw : w.CursorOk s.cfg s.lcd)
    (h : Lands s.cfg .idle .input (w.ReadingOk s.cfg) w.bitCount.toNat cs) : (s.begin w cs).Running where
  legal := hs.legal
  latchLow := hs.latchLow
  backlight := hs.backlight
  index := hs.index
  cursor := hw
  lands := by rw [State.begin_dec, State.begin_pinDir, hs.decIdle, hs.released]; exact h

theorem turnedAway_running {s : State} (hs : s.Inv) (e : ErrCode) : (s.turnedAway e).Running :=
  begin_running hs ⟨hs.row, hs.cursorHome⟩ ⟨rfl, rfl, hs.reading, hs.bits⟩

/-- An LCD operation's logical update leaves the reading and the captured bits, and gives the cursor a clamped row. -/
theorem lcdStart_running {s : State} (hs : s.Inv) {w : Results} {cs : List Cmd} (hrow : w.cursorRow.toNat < s.cfg.numRows)
    (hread : w.ReadingOk s.cfg) (hbits : w.bitCount.toNat ≤ 40) (hp : cs.all Cmd.isPlain) :
    (s.lcdStart w cs).Running := by
  unfold State.lcdStart
  split
  · next hl =>
    exact begin_running hs ⟨hrow, fun h => absurd hl h⟩ (lands_plain_append hp hread hbits ⟨rfl, rfl, hread, hbits⟩)
  · exact turnedAway_running hs _

theorem startInit_running {s : State} (hs : s.Inv) : (startInit s).Running := by
  unfold startInit
  split
  · next hl =>
    have hhome := hs.cursorHome (by simp [hl])
    have hrun := begin_running hs ⟨hs.row, hs.cursorHome⟩
      (lands_plain_append (cs := initCmds s.cfg s.backlight) (tail := [.initDone]) rfl hs.reading hs.bits
        ⟨rfl, rfl, hs.reading, hs.bits⟩)
    exact { hrun with cursor := ⟨hs.row, fun _ => hhome⟩ }
  · exact turnedAway_running hs _

/-- The effective row is a row of the display (41_lcd_controller.md R144). -/
theorem rowEff_lt {c : Config} (h : c.wf = true) (r : Byte) : (rowEff c r).toNat < c.numRows := by
  obtain ⟨-, -, -, hlo, hhi⟩ := counts_of_wf h
  rw [rowEff, BitVec.toNat_ofNat]
  omega

theorem started_running {s : State} (hs : s.Inv) (i : Instr) : (s.started i).Running := by
  have hrows : 0 < s.cfg.numRows := Nat.zero_lt_of_lt hs.row
  cases i with
  | init => exact startInit_running hs
  | command v => exact lcdStart_running hs hs.row hs.reading hs.bits rfl
  | data v => exact lcdStart_running hs hs.row hs.reading hs.bits rfl
  | clear => exact lcdStart_running hs hrows hs.reading hs.bits rfl
  | setCursor r c => exact lcdStart_running hs (rowEff_lt hs.legal r) hs.reading hs.bits rfl
  | sensorRead => exact begin_running hs ⟨hs.row, hs.cursorHome⟩ (lands_readCmds hs.legal _ _ _ _)

/-- An act of the host on an idle engine keeps the invariant. -/
theorem hostAct_inv {s : State} (hs : s.Inv) (a : HostAct) : (s.hostAct a).Inv := by
  by_cases ha : a = .reset
  · rw [ha]
    exact hardReset_inv hs.legal
  · exact inv_of_hostless (hostAct_hostless s a ha) hs

/-- Settles O55: an accepted operation runs under `State.Running`, whose commands land in the invariant; every other turn
of the host is a reset or leaves the invariant's state alone. -/
theorem stepKeepsInvariant : Obligations.StepKeepsInvariant := by
  intro s t hs h
  have hpop : s.popTurn.Inv := inv_of_hostless (withScript_hostless s _) hs
  rcases step_next_cases h with ⟨hb, -⟩ | ⟨-, ⟨i, rfl⟩ | rfl | ⟨a, rfl⟩ | rfl⟩
  · rw [hs.idle] at hb; cases hb
  · exact resume_inv (started_running hpop i)
  · exact resume_inv (turnedAway_running hpop _)
  · exact hostAct_inv hpop a
  · exact hpop

end Sys2Proof.Machine

/-! ### Runs to the end, and runs without the host -/

namespace Sys2Proof.Machine

/-- A run that has performed every command is the whole operation. -/
theorem resume_eq_run_of_seq_nil {s : State} {n : Nat} (h : (s.run n).seq = []) : s.resume = s.run n := by
  have stops {i j : Nat} (hij : i ≤ j) (hi : (s.run i).seq = []) : s.run j = s.run i := by
    rw [← Nat.add_sub_cancel' hij, run_add, run_of_seq_nil _ _ hi]
  rcases Nat.le_total n (seqCost s.cfg s.seq) with hle | hle
  · exact stops hle h
  · exact (stops hle (resume_seq_nil s)).symm

theorem tick_of_script_nil {s : State} (h : s.world.script = []) : s.tick = s.advance := by
  rw [State.tick, gap_of_script_nil s h]

theorem tick_script_nil {s : State} (h : s.world.script = []) : s.tick.world.script = [] := by
  rw [tick_of_script_nil h, advance_script, h]

theorem advance_cons {s : State} {c : Cmd} {cs : List Cmd} (h : s.seq = c :: cs) :
    s.advance = (s.withSeq cs).perform c := by
  simp only [State.advance, h]

/-- Without the host, a run performs the first command and goes on with the others. -/
theorem run_succ_of_script_nil {s : State} {c : Cmd} {cs : List Cmd} (n : Nat) (h : s.world.script = [])
    (hseq : s.seq = c :: cs) : s.run (n + 1) = ((s.withSeq cs).perform c).run n := by
  rw [run_succ n s (by simp [hseq]), tick_of_script_nil h, advance_cons hseq]

/-- What every command keeps holds at the end of an operation without a reset, but for the host's part of the state. -/
theorem resume_induct_advance (P : State → Prop) (step : ∀ u, u.seq ≠ [] → P u → P u.advance) {s : State}
    (hn : s.NoReset) (h : P s.hostless) : P s.resume.hostless := by
  rw [resume_hostless s hn]
  refine (run_induct (fun u => u.world.script = [] ∧ P u) (fun u hseq hu => ?_) _ s.hostless ⟨rfl, h⟩).2
  obtain ⟨hscript, hP⟩ := hu
  exact ⟨tick_script_nil hscript, tick_of_script_nil hscript ▸ step u hseq hP⟩

/-! ### What a command leaves unchanged -/

/-- A command that is not the end of its operation leaves `busy` and the committed results (10_state.md R48); one that is
leaves the engine idle with no command to come. -/
theorem perform_busy_res (c : Cmd) (s : State) :
    (s.perform c).busy = s.busy ∧ (s.perform c).res = s.res ∨
      (s.perform c).busy = false ∧ (s.perform c).seq = [] := by
  cases c with
  | busWrite b =>
    simp only [State.perform, State.performWrite]
    split
    · exact .inl (by simp)
    · exact .inr (by simp)
  | poll i n =>
    simp only [State.perform, State.performPoll]
    split
    · exact .inl (by simp)
    · split <;> exact .inl (by simp)
  | ackSample => exact .inl (by simp [State.perform, State.performAck])
  | endWith e => exact .inr ⟨rfl, rfl⟩
  | initDone => exact .inr ⟨rfl, rfl⟩
  | readDone => exact .inr ⟨rfl, rfl⟩
  | delay t => exact .inl ⟨rfl, rfl⟩
  | setDir d => exact .inl ⟨rfl, rfl⟩
  | pinWrite l => exact .inl ⟨rfl, rfl⟩
  | enterDec d => exact .inl ⟨rfl, rfl⟩
  | clearFrame => exact .inl ⟨rfl, rfl⟩
  | validate => exact .inl ⟨rfl, rfl⟩

/-- No command touches the backlight or `ovr` (10_state.md R26, R34). -/
theorem perform_backlight_ovr (c : Cmd) (s : State) :
    (s.perform c).backlight = s.backlight ∧ (s.perform c).ovr = s.ovr := by
  cases c with
  | busWrite b =>
    simp only [State.perform, State.performWrite]
    split <;> simp
  | poll i n =>
    simp only [State.perform, State.performPoll]
    split
    · simp
    · split <;> simp
  | ackSample => simp [State.perform, State.performAck]
  | _ => exact ⟨rfl, rfl⟩

theorem advance_ovr (s : State) : s.advance.ovr = s.ovr := by
  unfold State.advance
  split
  · rfl
  · exact (perform_backlight_ovr _ (s.withSeq _)).2

/-- Only `initDone` moves `lcd_state` (10_state.md R23). -/
theorem perform_lcd {c : Cmd} (hc : c ≠ .initDone) (s : State) : (s.perform c).lcd = s.lcd := by
  cases c with
  | busWrite b =>
    simp only [State.perform, State.performWrite]
    split <;> simp
  | poll i n =>
    simp only [State.perform, State.performPoll]
    split
    · simp
    · split <;> simp
  | ackSample => simp [State.perform, State.performAck]
  | initDone => exact absurd rfl hc
  | _ => rfl

/-- The commands after a command are among those that were to come, but for the waits and samples of a measurement. -/
theorem mem_perform_seq {c x : Cmd} {s : State} (h : x ∈ (s.perform c).seq) :
    x ∈ s.seq ∨ (∃ t, x = .delay t) ∨ ∃ i n, x = .poll i n := by
  cases c with
  | busWrite b =>
    simp only [State.perform, State.performWrite] at h
    split at h
    · exact .inl (by simpa using h)
    · simp at h
  | poll i n =>
    simp only [State.perform, State.performPoll] at h
    split at h
    · exact .inl (by simpa using h)
    · split at h
      · exact .inl ((List.dropWhile_suffix _).subset h)
      · rw [State.withSeq_seq, List.mem_cons, List.mem_cons] at h
        rcases h with h | h | h
        · exact .inr (.inl ⟨_, h⟩)
        · exact .inr (.inr ⟨_, _, h⟩)
        · exact .inl h
  | ackSample => exact .inl (by simpa [State.perform, State.performAck] using h)
  | endWith e => cases h
  | initDone => cases h
  | readDone => cases h
  | _ => exact .inl h

/-! ### Operations come to an end -/

/-- Settles O10: the operation runs closed, so that it is idle once it has performed its last command. -/
theorem everyOperationComesToAnEnd : Obligations.EveryOperationComesToAnEnd := by
  intro s i ha
  have hcfg : (s.started i).resume.cfg = s.cfg := (run_cfg _ _).trans (started_cfg s i)
  exact ⟨_, exec_of_accepts i s ha, resume_idle _ (started_closed s i), resume_seq_nil _, hcfg⟩

/-- Settles O52: acceptance and every move take no notice of what the host does but for a reset. -/
theorem hostDoesNotDisturbOperation : Obligations.HostDoesNotDisturbOperation := by
  intro s t i ha hn h
  have ha' : s.hostless.Accepts := ⟨ha.legal, ha.idle⟩
  rw [exec_of_accepts i s ha] at h
  cases h
  rw [exec_of_accepts i _ ha', ← started_hostless, resume_hostless _ (started_noReset s i hn)]

/-! ### Busy until the last move -/

/-- A move either leaves the engine busy with the committed results and the backlight as they were, or leaves it idle with
no command to come. -/
theorem tick_of_busy {s : State} (h : s.busy = true) :
    s.tick.busy = true ∧ s.tick.res = s.res ∧ s.tick.backlight = s.backlight ∨
      s.tick.busy = false ∧ s.tick.seq = [] := by
  rcases gap_cases s with hgap | ⟨u, -, hgap, -⟩
  · have hbusy : s.gap.busy = true := (busy_of_hostless _ _ hgap).trans h
    have hres : s.gap.res = s.res := res_of_hostless _ _ hgap
    have hbl : s.gap.backlight = s.backlight := backlight_of_hostless _ _ hgap
    unfold State.tick State.advance
    split
    · exact .inl ⟨hbusy, hres, hbl⟩
    · next c cs _ =>
      have hb := (perform_backlight_ovr c (s.gap.withSeq cs)).1
      rcases perform_busy_res c (s.gap.withSeq cs) with ⟨hkeep, hr⟩ | hend
      · exact .inl ⟨hkeep.trans hbusy, hr.trans hres, hb.trans hbl⟩
      · exact .inr hend
  · rw [State.tick, hgap]
    exact .inr ⟨rfl, rfl⟩

/-- Settles O51: the only moves that write the committed results end the operation. -/
theorem resultsStayUntilCompletion : Obligations.ResultsStayUntilCompletion := by
  intro s hb hb'
  rcases tick_of_busy hb with ⟨-, hres, hbl⟩ | ⟨hidle, -⟩
  · simp [hres, hbl, State.cursorWord, State.readingWord, State.frame0Word, State.frame1Word]
  · rw [hb'] at hidle; cases hidle

theorem run_one {s : State} (h : s.seq ≠ []) : s.run 1 = s.tick := run_succ 0 s h

/-- A busy engine with a command to come that ends its operation is busy before each of its moves up to a last one, which
brings the operation to its end. -/
theorem resume_moves {s : State} (hb : s.busy = true) (hc : s.Closed) :
    ∃ n, 0 < n ∧ s.resume = s.run n ∧ (s.run n).busy = false ∧
      ∀ k < n, (s.run k).busy = true ∧ s.run (k + 1) = (s.run k).tick := by
  have hends : ∃ n, (s.run n).busy = false := ⟨_, resume_idle s hc⟩
  have hpos : 0 < Nat.find hends := by
    rw [Nat.find_pos, Bool.not_eq_false]; exact hb
  have hbusy {k : Nat} (hk : k < Nat.find hends) : (s.run k).busy = true :=
    (Bool.not_eq_false _).mp (Nat.find_min hends hk)
  have hmove {k : Nat} (hk : k < Nat.find hends) : s.run (k + 1) = (s.run k).tick := by
    obtain ⟨pre, c, hseq, -⟩ := run_induct State.Closed (fun u _ => tick_closed u) k s hc (hbusy hk)
    rw [run_add, run_one (by simp [hseq])]
  refine ⟨Nat.find hends, hpos, resume_eq_run_of_seq_nil ?_, Nat.find_spec hends, fun k hk => ⟨hbusy hk, hmove hk⟩⟩
  obtain ⟨k, hk⟩ := Nat.exists_eq_succ_of_ne_zero hpos.ne'
  have hlast : s.run (Nat.find hends) = (s.run k).tick := by rw [hk, Nat.succ_eq_add_one, hmove (by omega)]
  rcases tick_of_busy (hbusy (k := k) (by omega)) with ⟨hstill, -⟩ | ⟨-, hseq⟩
  · rw [← hlast, Nat.find_spec hends] at hstill; cases hstill
  · rw [hlast, hseq]

/-- Acceptance moves `lcd_state` for an INIT in UNINIT alone (10_state.md R23). -/
theorem started_lcd (s : State) (i : Instr) :
    (s.started i).lcd = if i = .init ∧ s.lcd = .uninit then .initializing else s.lcd := by
  have lcd (w : Results) (cs : List Cmd) : (s.lcdStart w cs).lcd = s.lcd := by
    unfold State.lcdStart
    split <;> rfl
  cases i with
  | init =>
    by_cases hl : s.lcd = .uninit
    · simp [State.started, startInit, hl]
    · simp [State.started, startInit, hl, State.turnedAway]
  | command v => exact (lcd _ _).trans (by simp)
  | data v => exact (lcd _ _).trans (by simp)
  | clear => exact (lcd _ _).trans (by simp)
  | setCursor r c => exact (lcd _ _).trans (by simp)
  | sensorRead => simp [State.started, startSensorRead]

/-- Settles O58: an accepted operation is busy and closed, and its moves are counted up to the first that ends it. -/
theorem busyUntilLastMove : Obligations.BusyUntilLastMove := by
  intro s i ha _
  obtain ⟨n, hpos, hresume, hidle, hbusy⟩ := resume_moves (started_busy s i) (started_closed s i)
  refine ⟨?_, n, hpos, ?_, hidle, hbusy⟩
  · rw [← started_lcd]
    exact started_eq s i
  · rw [exec_of_accepts i s ha, hresume]

/-! ### `lcd_state` -/

theorem not_mem_of_all_isPlain {cs : List Cmd} (h : cs.all Cmd.isPlain) : Cmd.initDone ∉ cs :=
  fun hm => by simpa [Cmd.isPlain] using List.all_eq_true.mp h _ hm

/-- The end command of INIT is INIT's alone. -/
theorem initDone_not_mem_started {i : Instr} (hi : i ≠ .init) (s : State) : Cmd.initDone ∉ (s.started i).seq := by
  have lcd (w : Results) {cs : List Cmd} (h : cs.all Cmd.isPlain) : Cmd.initDone ∉ (s.lcdStart w cs).seq := by
    unfold State.lcdStart
    split
    · simp [not_mem_of_all_isPlain h]
    · simp [State.turnedAway]
  cases i with
  | init => exact absurd rfl hi
  | command v => exact lcd _ rfl
  | data v => exact lcd _ rfl
  | clear => exact lcd _ rfl
  | setCursor r c => exact lcd _ rfl
  | sensorRead => simp [State.started, startSensorRead, readCmds]

/-- Without a reset, an operation that has not INIT's end command to come leaves `lcd_state`. -/
theorem resume_lcd {s : State} (hn : s.NoReset) (h : Cmd.initDone ∉ s.seq) : s.resume.lcd = s.lcd := by
  refine (resume_induct_advance (fun u => u.lcd = s.lcd ∧ Cmd.initDone ∉ u.seq) (fun u hseq hu => ?_) hn ⟨rfl, h⟩).1
  obtain ⟨hlcd, hmem⟩ := hu
  obtain ⟨c, cs, hcs⟩ := List.exists_cons_of_ne_nil hseq
  rw [hcs, List.mem_cons, not_or] at hmem
  obtain ⟨hc, hmem⟩ := hmem
  rw [advance_cons hcs]
  refine ⟨(perform_lcd (Ne.symm hc) _).trans hlcd, fun hx => ?_⟩
  rcases mem_perform_seq hx with hx | ⟨_, hx⟩ | ⟨_, _, hx⟩
  · exact hmem hx
  · cases hx
  · cases hx

/-- Where an INIT that was accepted in UNINIT can be: on its way with bus writes and waits before its end, or at one of its
two ends (41_lcd_controller.md R141). -/
def State.InInit (s : State) : Prop :=
  (s.lcd = .initializing ∧ ∃ cs, cs.all Cmd.isPlain = true ∧ s.seq = cs ++ [.initDone]) ∨
    s.seq = [] ∧
      (s.lcd = .ready ∧ s.res.lastErr = .none ∨ s.lcd = .initializing ∧ s.res.lastErr = .busTransferFailure)

theorem advance_inInit {s : State} (hseq : s.seq ≠ []) (h : s.InInit) : s.advance.InInit := by
  rcases h with ⟨hl, cs, hp, hcs⟩ | ⟨hnil, -⟩
  · cases cs with
    | nil =>
      rw [advance_cons hcs]
      exact .inr ⟨rfl, .inl ⟨rfl, rfl⟩⟩
    | cons c cs =>
      rw [List.all_cons, Bool.and_eq_true] at hp
      obtain ⟨hc, hp⟩ := hp
      rw [advance_cons hcs]
      cases c with
      | busWrite b =>
        simp only [State.perform, State.performWrite]
        split
        · exact .inl ⟨by simpa using hl, cs, hp, by simp⟩
        · exact .inr ⟨by simp, .inr ⟨by simpa using hl, by simp⟩⟩
      | delay t => exact .inl ⟨hl, cs, hp, rfl⟩
      | _ => cases hc
  · exact absurd hnil hseq

/-- INIT accepted in UNINIT comes to one of its two ends. -/
theorem resume_startInit_of_uninit {s : State} (hn : s.NoReset) (hl : s.lcd = .uninit) :
    (startInit s).resume.lcd = .ready ∧ (startInit s).resume.res.lastErr = .none ∨
      (startInit s).resume.lcd = .initializing ∧ (startInit s).resume.res.lastErr = .busTransferFailure := by
  have hstart : startInit s =
      (s.begin s.res (initCmds s.cfg s.backlight ++ [.initDone])).withLcd .initializing := if_pos hl
  have hin : (startInit s).hostless.InInit := by
    rw [hstart]
    exact .inl ⟨rfl, _, rfl, rfl⟩
  have hn' : (startInit s).NoReset := started_noReset s .init hn
  rcases resume_induct_advance State.InInit (fun u => advance_inInit) hn' hin with ⟨-, cs, -, hseq⟩ | ⟨-, hend⟩
  · have hnil : (startInit s).resume.hostless.seq = [] := resume_seq_nil _
    rw [hnil] at hseq
    simp at hseq
  · exact hend

/-- An operation turned away leaves `lcd_state` and ends with its code. -/
theorem resume_turnedAway_lcd_lastErr {s : State} (hn : s.NoReset) (e : ErrCode) :
    (s.turnedAway e).resume.lcd = s.lcd ∧ (s.turnedAway e).resume.res.lastErr = e := by
  have h := resume_turnedAway s e hn
  exact ⟨(congrArg State.lcd h :), (congrArg (fun u : State => u.res.lastErr) h :)⟩

/-- Settles O35: no other operation has INIT's end command, and INIT in UNINIT has two ends. -/
theorem onlyInitMovesLcdState : Obligations.OnlyInitMovesLcdState := by
  refine ⟨fun s t i hi hn h => ?_, fun s t ha hn h => ?_⟩
  · rw [exec_eq_issue] at h
    rcases issue_next_cases h with ⟨-, rfl⟩ | ⟨-, rfl⟩
    · rfl
    · rw [resume_lcd (started_noReset s i hn) (initDone_not_mem_started hi s), started_lcd, if_neg (fun h => hi h.1)]
  · rw [exec_of_accepts .init s ha] at h
    cases h
    split
    · next hl => exact resume_startInit_of_uninit hn hl
    · next hl =>
      rw [show s.started .init = s.turnedAway .invalidState from if_neg hl]
      exact resume_turnedAway_lcd_lastErr hn _

end Sys2Proof.Machine

/-! ### `ovr` -/

namespace Sys2Proof.Machine

/-- Whether a host's act clears `ovr`: a reset, or a 32-bit write of 1 to STATUS.OVR (10_state.md R34, R43). -/
def HostAct.ClearsOvr (c : Config) : HostAct → Prop
  | .read _ _ => False
  | .write addr width w => width = 4 ∧ regAt c addr 4 = some .status ∧ w.getLsbD 12 = true
  | .reset => True

/-- Whether a host's act can set `ovr`: a 32-bit write of OP (10_state.md R41). -/
def HostAct.SetsOvr (c : Config) : HostAct → Prop
  | .read _ _ => False
  | .write addr width _ => width = 4 ∧ regAt c addr 4 = some .op
  | .reset => False

/-- What the turns `ts` of the host allow `ovr` to become, from `b` to `b'`. -/
structure OvrMoves (c : Config) (ts : List Turn) (b b' : Bool) : Prop where
  cleared : b = true → b' = false → ∃ a, Turn.act a ∈ ts ∧ a.ClearsOvr c
  set : b = false → b' = true → ∃ a, Turn.act a ∈ ts ∧ a.SetsOvr c

theorem OvrMoves.refl (c : Config) (ts : List Turn) (b : Bool) : OvrMoves c ts b b where
  cleared := fun h h' => by rw [h] at h'; cases h'
  set := fun h h' => by rw [h] at h'; cases h'

theorem OvrMoves.trans {c : Config} {ts : List Turn} {b₁ b₂ b₃ : Bool} (h : OvrMoves c ts b₁ b₂)
    (h' : OvrMoves c ts b₂ b₃) : OvrMoves c ts b₁ b₃ where
  cleared := fun h₁ h₃ => by
    cases b₂ with
    | false => exact h.cleared h₁ rfl
    | true => exact h'.cleared rfl h₃
  set := fun h₁ h₃ => by
    cases b₂ with
    | false => exact h'.set rfl h₃
    | true => exact h.set h₁ rfl

theorem OvrMoves.mono {c : Config} {ts ts' : List Turn} {b b' : Bool} (hts : ts ⊆ ts') (h : OvrMoves c ts b b') :
    OvrMoves c ts' b b' where
  cleared := fun hb hb' => by obtain ⟨a, ha, hc⟩ := h.cleared hb hb'; exact ⟨a, hts ha, hc⟩
  set := fun hb hb' => by obtain ⟨a, ha, hs⟩ := h.set hb hb'; exact ⟨a, hts ha, hs⟩

/-- A register is reached by 32-bit accesses alone (20_memory.md R62). -/
theorem width_of_regAt {c : Config} {addr width : Nat} {r : Reg} (h : regAt c addr width = some r) : width = 4 := by
  unfold regAt at h
  split at h
  · next hw => exact hw.1
  · cases h

theorem hostAct_cfg (s : State) (a : HostAct) : (s.hostAct a).cfg = s.cfg := by
  by_cases ha : a = .reset
  · rw [ha]; rfl
  · exact cfg_of_hostless _ _ (hostAct_hostless s a ha)

theorem hostAct_ovrMoves (s : State) {a : HostAct} {ts : List Turn} (ha : Turn.act a ∈ ts) :
    OvrMoves s.cfg ts s.ovr (s.hostAct a).ovr := by
  cases a with
  | read addr width =>
    have hkeep : (s.hostRead addr width).ovr = s.ovr := by
      unfold State.hostRead; split <;> rfl
    rw [State.hostAct, hkeep]
    exact .refl _ _ _
  | write addr width w =>
    simp only [State.hostAct, State.hostWrite, State.writeStatus]
    split
    · next hreg =>
      have hw := width_of_regAt hreg
      subst hw
      split
      · exact ⟨fun _ h => (by cases h), fun _ _ => ⟨_, ha, rfl, hreg⟩⟩
      · exact .refl _ _ _
    · next hreg =>
      have hw := width_of_regAt hreg
      subst hw
      split
      · next hbit => exact ⟨fun _ _ => ⟨_, ha, rfl, hreg, hbit⟩, fun _ h => by cases h⟩
      · exact .refl _ _ _
    · exact .refl _ _ _
  | reset => exact ⟨fun _ _ => ⟨_, ha, trivial⟩, fun _ h => by cases h⟩

theorem hostTurns_ovrMoves (ts : List Turn) : ∀ s : State, OvrMoves s.cfg ts s.ovr (s.hostTurns ts).ovr := by
  induction ts with
  | nil => exact fun s => .refl _ _ _
  | cons x ts ih =>
    intro s
    cases x with
    | pass => exact .refl _ _ _
    | waitIdle => exact .refl _ _ _
    | act a =>
      have hact := hostAct_ovrMoves (s.withScript ts) (List.mem_cons_self (a := .act a) (l := ts))
      simp only [State.hostTurns]
      split
      · have hrest := ih ((s.withScript ts).hostAct a)
        rw [hostAct_cfg] at hrest
        exact hact.trans (hrest.mono (List.subset_cons_self _ _))
      · exact hact

theorem tick_ovrMoves (s : State) : OvrMoves s.cfg s.world.script s.ovr s.tick.ovr := by
  rw [State.tick, advance_ovr]
  exact hostTurns_ovrMoves _ s

theorem tick_script_subset (s : State) : s.tick.world.script ⊆ s.world.script := by
  rw [State.tick, advance_script]
  exact hostTurns_script_subset _ s

theorem resume_ovrMoves (s : State) : OvrMoves s.cfg s.world.script s.ovr s.resume.ovr := by
  refine (run_induct (fun u => u.cfg = s.cfg ∧ u.world.script ⊆ s.world.script ∧
    OvrMoves s.cfg s.world.script s.ovr u.ovr) (fun u _ hu => ?_) _ s ⟨rfl, List.Subset.refl _, .refl _ _ _⟩).2.2
  obtain ⟨hcfg, hsub, hovr⟩ := hu
  have htick := tick_ovrMoves u
  rw [hcfg] at htick
  exact ⟨(tick_cfg u).trans hcfg, fun _ hx => hsub (tick_script_subset u hx), hovr.trans (htick.mono hsub)⟩

theorem started_ovr (s : State) (i : Instr) : (s.started i).ovr = s.ovr := by rw [started_eq]

theorem popTurn_script_subset (s : State) : s.popTurn.world.script ⊆ s.world.script := List.tail_subset _

theorem otherTurn_ovrMoves (s : State) : OvrMoves s.cfg s.world.script s.ovr s.otherTurn.ovr := by
  unfold State.otherTurn
  split
  · next a ts hscript => exact hostAct_ovrMoves s.popTurn (by simp [hscript])
  · exact .refl _ _ _

/-- An idle engine takes an operation word as its host's next turn, or another turn. -/
theorem step_idle_cases {s t : State} (hb : s.busy = false) (h : step s = .next t) :
    (∃ i, t = (s.popTurn.started i).resume) ∨ t = (s.popTurn.turnedAway .illegalOp).resume ∨ t = s.otherTurn := by
  unfold step at h
  rw [if_neg (by simp [hb] : ¬ s.busy = true)] at h
  split at h
  · split at h
    · rcases runWord_next_cases (s := s.popTurn) hb h with hi | ht
      · exact .inl hi
      · exact .inr (.inl ht)
    · cases h; exact .inr (.inr rfl)
  · cases h

/-- Over a step, `ovr` follows the acts of the host alone. -/
theorem step_ovrMoves {s t : State} (h : step s = .next t) : OvrMoves s.cfg s.world.script s.ovr t.ovr := by
  cases hb : s.busy with
  | true =>
    rcases step_next_cases h with ⟨-, rfl⟩ | ⟨hidle, -⟩
    · exact resume_ovrMoves s
    · rw [hb] at hidle; cases hidle
  | false =>
    have hsub := popTurn_script_subset s
    rcases step_idle_cases hb h with ⟨i, rfl⟩ | rfl | rfl
    · have hrun := resume_ovrMoves (s.popTurn.started i)
      rw [started_cfg, started_world, started_ovr] at hrun
      exact hrun.mono hsub
    · exact (resume_ovrMoves (s.popTurn.turnedAway .illegalOp)).mono hsub
    · exact otherTurn_ovrMoves s

/-- Settles O18: of the acts of the host, resets and writes of 1 to STATUS.OVR alone clear `ovr`. -/
theorem ovrClearedOnlyByHost : Obligations.OvrClearedOnlyByHost := by
  intro s t h hs ht
  obtain ⟨a, ha, hclears⟩ := (step_ovrMoves h).cleared hs ht
  cases a with
  | read addr width => exact hclears.elim
  | write addr width w =>
    obtain ⟨rfl, hreg, hbit⟩ := hclears
    exact .inr ⟨addr, w, ha, hreg, hbit⟩
  | reset => exact .inl ha

/-- Settles O19: of the acts of the host, writes of OP alone set `ovr`. -/
theorem ovrSetOnlyByOpWrite : Obligations.OvrSetOnlyByOpWrite := by
  intro s t h hs ht
  obtain ⟨a, ha, hsets⟩ := (step_ovrMoves h).set hs ht
  cases a with
  | read addr width => exact hsets.elim
  | write addr width w =>
    obtain ⟨rfl, hreg⟩ := hsets
    exact ⟨addr, w, ha, hreg⟩
  | reset => exact hsets.elim

end Sys2Proof.Machine

/-! ### Reset -/

namespace Sys2Proof.Machine

/-- Every piece of state has its value of the reset table after a reset (10_state.md R49). -/
theorem hardReset_atReset (s : State) : s.hardReset.AtReset s.cfg := by constructor <;> rfl

theorem reset_atReset : State.reset.AtReset Config.defaults := by constructor <;> rfl

/-- The host lets the engine go on by one command. -/
theorem tick_of_pass {s : State} {ts : List Turn} (h : s.world.script = .pass :: ts) :
    s.tick.hostless = s.hostless.tick ∧ s.tick.world.script = ts := by
  have hgap : s.gap = s.withScript ts := by rw [State.gap, h]; rfl
  rw [State.tick, hgap, advance_hostless, withScript_hostless, advance_script, tick_of_script_nil rfl]
  exact ⟨rfl, rfl⟩

/-- The host resets before the engine's next command, which is the end of the operation. -/
theorem tick_of_reset {s : State} {ts : List Turn} (h : s.world.script = .act .reset :: ts) :
    s.tick = (s.withScript ts).hardReset := by
  rw [State.tick, State.gap, h]
  rfl

/-- While the host lets `k` commands pass, the engine does what it does without the host. -/
theorem run_of_passes (k : Nat) (ts : List Turn) : ∀ s : State, s.world.script = List.replicate k .pass ++ ts →
    (s.hostless.run k).seq ≠ [] → (s.run k).hostless = s.hostless.run k ∧ (s.run k).world.script = ts := by
  induction k with
  | zero => exact fun s hscript _ => ⟨rfl, hscript⟩
  | succ k ih =>
    intro s hscript hseq
    have hne : s.seq ≠ [] := fun hnil => hseq (by rwa [run_of_seq_nil (s := s.hostless) _ hnil])
    obtain ⟨htick, hrest⟩ := tick_of_pass hscript
    rw [run_succ k s hne]
    rw [run_succ k s.hostless hne, ← htick] at hseq ⊢
    exact ih s.tick hrest hseq

/-- A reset after `k` commands of an operation that had not ended brings the engine to its reset values there. -/
theorem resume_of_reset {s : State} {k : Nat} {ts : List Turn}
    (hscript : s.world.script = List.replicate k .pass ++ .act .reset :: ts) (hseq : (s.hostless.run k).seq ≠ []) :
    s.resume = ((s.run k).withScript ts).hardReset ∧ (s.run k).hostless = s.hostless.run k := by
  obtain ⟨hrun, hreset⟩ := run_of_passes k _ s hscript hseq
  have hne : (s.run k).seq ≠ [] := by rwa [← hrun] at hseq
  have hlast : s.run (k + 1) = ((s.run k).withScript ts).hardReset := by
    rw [run_add, run_one hne, tick_of_reset hreset]
  exact ⟨(resume_eq_run_of_seq_nil (by rw [hlast]; rfl)).trans hlast, hrun⟩

/-- Settles O21: exec and a step each bring the operation `u` to its end, and the reset is that end. -/
theorem resetEndsRunningOperation : Obligations.ResetEndsRunningOperation := by
  intro s u o k ts hrun hscript _ hseq
  have hu : o = .next u.resume ∧ u.cfg = s.cfg ∧ u.world = s.world := by
    rcases hrun with ⟨i, ha, rfl, rfl⟩ | ⟨hwf, hb, rfl, rfl⟩
    · exact ⟨exec_of_accepts i s ha, started_cfg s i, started_world s i⟩
    · exact ⟨by simp [step, hwf, hb], rfl, rfl⟩
  obtain ⟨ho, hcfg, hworld⟩ := hu
  obtain ⟨hresume, hk⟩ := resume_of_reset (s := u) (by rw [hworld, hscript]) hseq
  have hkcfg : (u.run k).cfg = s.cfg := (run_cfg k u).trans hcfg
  refine ⟨_, ho, ?_⟩
  rw [hresume, ← hk]
  exact ⟨hkcfg ▸ hardReset_atReset ((u.run k).withScript ts), rfl, rfl, rfl⟩

end Sys2Proof.Machine

/-! ### The phases of a read (42_sensor_decoder.md R185, R186) -/

namespace Sys2Proof.Machine

/-- A sample of a measurement, or a wait between two. -/
def Cmd.isMeasuring : Cmd → Bool
  | .delay _ => true
  | .poll _ _ => true
  | _ => false

/-- The measurements of a read. -/
def measureCmds (c : Config) : List Cmd := (List.range c.nMeas).map fun i => .poll i 0

/-- What a read does between its last measurement and its end. -/
def readTail : List Cmd := [.enterDec .validate, .validate, .setDir .input]

theorem run_script_nil (n : Nat) {s : State} (h : s.world.script = []) : (s.run n).world.script = [] :=
  run_induct (fun u => u.world.script = []) (fun _ _ => tick_script_nil) n s h

/-- A wait or a sample of a measurement leaves `dec_state`, and the commands after the measurements still to come. -/
theorem perform_measuring {c : Cmd} {cs tail : List Cmd} (hc : c.isMeasuring = true) (hcs : cs.all Cmd.isMeasuring = true)
    (htail : tail.dropWhile Cmd.isPoll = tail) {s : State} (hseq : s.seq = cs ++ tail) :
    (s.perform c).dec = s.dec ∧ ∃ cs', cs'.all Cmd.isMeasuring = true ∧ (s.perform c).seq = cs' ++ tail := by
  cases c with
  | delay t => exact ⟨rfl, cs, hcs, hseq⟩
  | poll i n =>
    simp only [State.perform, State.performPoll]
    split
    · exact ⟨by simp, cs, hcs, by simpa using hseq⟩
    · split
      · refine ⟨by simp, cs.dropWhile Cmd.isPoll, ?_, ?_⟩
        · exact List.all_eq_true.mpr fun x hx => List.all_eq_true.mp hcs x ((List.dropWhile_suffix _).subset hx)
        · rw [State.withSeq_seq, hseq, List.dropWhile_append, htail]
          split
          · next hnil => rw [List.isEmpty_iff.mp hnil, List.nil_append]
          · rfl
      · exact ⟨by simp, .delay s.cfg.tPoll :: .poll i (n + 1) :: cs, hcs, by simp [hseq]⟩
  | _ => cases hc

/-- Without the host, measurements come to an end after some moves, before which `dec_state` stays as it is. -/
theorem run_measuring {tail : List Cmd} (htail : tail.dropWhile Cmd.isPoll = tail) (s : State) (cs : List Cmd)
    (hscript : s.world.script = []) (hcs : cs.all Cmd.isMeasuring = true) (hseq : s.seq = cs ++ tail) :
    ∃ p, (cs ≠ [] → 0 < p) ∧ (s.run p).seq = tail ∧ ∀ k ≤ p, (s.run k).dec = s.dec := by
  induction hcost : seqCost s.cfg s.seq using Nat.strong_induction_on generalizing s cs with
  | _ cost ih =>
    cases cs with
    | nil =>
      refine ⟨0, fun h => absurd rfl h, hseq, fun k hk => ?_⟩
      rw [Nat.le_zero.mp hk]
      rfl
    | cons c cs =>
      rw [List.all_cons, Bool.and_eq_true] at hcs
      obtain ⟨hc, hcs⟩ := hcs
      have hne : s.seq ≠ [] := by simp [hseq]
      obtain ⟨hdec, cs', hcs', hseq'⟩ := perform_measuring hc hcs htail (s := s.withSeq (cs ++ tail)) rfl
      have htick : s.tick = (s.withSeq (cs ++ tail)).perform c := by
        rw [tick_of_script_nil hscript, advance_cons hseq]
        rfl
      rw [← htick] at hdec hseq'
      have hlt : seqCost s.tick.cfg s.tick.seq < cost := by
        rw [← hcost, tick_cfg]
        exact tick_cost_lt s hne
      obtain ⟨p, -, hp, hk⟩ := ih _ hlt s.tick cs' (tick_script_nil hscript) hcs' hseq' rfl
      refine ⟨p + 1, fun _ => Nat.succ_pos p, by rw [run_succ _ _ hne, hp], fun k hle => ?_⟩
      cases k with
      | zero => rfl
      | succ k => rw [run_succ _ _ hne, hk k (by omega), hdec]; rfl

/-- A command with one outcome, which does not touch the commands after it. -/
def Cmd.isDirect : Cmd → Bool
  | .delay _ => true
  | .setDir _ => true
  | .pinWrite _ => true
  | .enterDec _ => true
  | .clearFrame => true
  | .validate => true
  | _ => false

theorem perform_withSeq {c : Cmd} (h : c.isDirect = true) (s : State) (cs : List Cmd) :
    (s.withSeq cs).perform c = (s.perform c).withSeq cs := by
  cases c with
  | delay _ => rfl
  | setDir _ => rfl
  | pinWrite _ => rfl
  | enterDec _ => rfl
  | clearFrame => rfl
  | validate => rfl
  | _ => cases h

theorem foldl_perform_withSeq {pre : List Cmd} (h : pre.all Cmd.isDirect = true) (s : State) (cs : List Cmd) :
    pre.foldl State.perform (s.withSeq cs) = (pre.foldl State.perform s).withSeq cs := by
  induction pre generalizing s with
  | nil => rfl
  | cons c pre ih =>
    rw [List.all_cons, Bool.and_eq_true] at h
    rw [List.foldl_cons, List.foldl_cons, perform_withSeq h.1, ih h.2]

/-- Without the host, direct commands are performed one after another. -/
theorem run_direct {pre tail : List Cmd} (h : pre.all Cmd.isDirect = true) {s : State} (hscript : s.world.script = [])
    (hseq : s.seq = pre ++ tail) {k : Nat} (hk : k ≤ pre.length) :
    s.run k = ((pre.take k).foldl State.perform s).withSeq (pre.drop k ++ tail) := by
  induction k generalizing s pre with
  | zero => rw [List.drop_zero, ← hseq]; rfl
  | succ k ih =>
    cases pre with
    | nil => cases hk
    | cons c pre =>
      rw [List.all_cons, Bool.and_eq_true] at h
      obtain ⟨hc, hpre⟩ := h
      rw [List.cons_append] at hseq
      have hscript' : ((s.withSeq (pre ++ tail)).perform c).world.script = [] := by rw [perform_script]; exact hscript
      have hseq' : ((s.withSeq (pre ++ tail)).perform c).seq = pre ++ tail := by rw [perform_withSeq hc]; rfl
      have htake : (pre.take k).all Cmd.isDirect = true :=
        List.all_eq_true.mpr fun x hx => List.all_eq_true.mp hpre x (List.mem_of_mem_take hx)
      rw [run_succ_of_script_nil k hscript hseq, ih hpre hscript' hseq' (Nat.le_of_succ_le_succ hk), perform_withSeq hc,
        foldl_perform_withSeq htake]
      rfl

/-- What a read does up to the acknowledge sample. -/
def readHead (c : Config) : List Cmd :=
  [.enterDec .resetPulse, .clearFrame, .setDir .output, .pinWrite .low, .delay c.tResetLow, .setDir .input,
    .delay c.tAckWait, .enterDec .waitAck]

theorem readCmds_eq_append (c : Config) :
    readCmds c = readHead c ++ Cmd.ackSample :: .enterDec .readBits :: (measureCmds c ++ (readTail ++ [Cmd.readDone])) := by
  simp [readCmds, readHead, measureCmds, readTail]

/-- The first commands of a read that nothing disturbs. -/
theorem run_readHead {s : State} {tail : List Cmd} (hscript : s.world.script = [])
    (hseq : s.seq = readHead s.cfg ++ tail) :
    (∀ k, 0 < k → k < 8 → (s.run k).dec = .resetPulse) ∧ (s.run 8).dec = .waitAck ∧ (s.run 8).seq = tail ∧
      (s.run 1).log.trace = s.log.trace ∧
      ∀ k ∈ [7, 8], (s.run k).log.trace = s.log.trace
        ++ [Event.setDir .output, .write .low, .delay s.cfg.tResetLow, .setDir .input, .delay s.cfg.tAckWait] := by
  have hrun {k : Nat} (hk : k ≤ 8) :
      s.run k = (((readHead s.cfg).take k).foldl State.perform s).withSeq ((readHead s.cfg).drop k ++ tail) :=
    run_direct rfl hscript hseq hk
  refine ⟨fun k hpos hlt => ?_, by rw [hrun (by omega)]; rfl, by rw [hrun (by omega)]; rfl,
    by rw [hrun (by omega)]; rfl, fun k hk => ?_⟩
  · rw [hrun (by omega)]
    interval_cases k <;> rfl
  · rw [List.mem_cons, List.mem_singleton] at hk
    rw [hrun (by omega)]
    rcases hk with rfl | rfl <;> simp [readHead, State.perform]

/-- The acknowledge sample and the entry of the next phase. -/
theorem run_ackSample {s : State} {d : DecState} {cs : List Cmd} (hscript : s.world.script = [])
    (hseq : s.seq = .ackSample :: .enterDec d :: cs) :
    (s.run 1).dec = s.dec ∧ (s.run 2).dec = d ∧ (s.run 2).seq = cs ∧
      ∀ k ∈ [1, 2], (s.run k).log.trace = s.log.trace ++ [Event.sample s.nextLevel] := by
  have hlevel : (s.withSeq (.enterDec d :: cs)).nextLevel = s.nextLevel := rfl
  have h1 : s.run 1 = (s.withSeq (.enterDec d :: cs)).performAck := run_succ_of_script_nil 0 hscript hseq
  have h2 : s.run 2 = ((s.run 1).withSeq cs).withDec d := by
    rw [run_add 1 1]
    exact run_succ_of_script_nil (c := .enterDec d) 0 (run_script_nil 1 hscript) (by simp [h1, State.performAck])
  simp [h2, h1, State.performAck, hlevel]

/-- After the last measurement the read enters VALIDATE, releases the pin as its last event and is IDLE with its last
command. -/
theorem run_readTail {s : State} (hscript : s.world.script = []) (hseq : s.seq = readTail ++ [Cmd.readDone]) :
    (∀ k, 0 < k → k < 4 → (s.run k).dec = .validate) ∧ (s.run 4).dec = .idle ∧ (s.run 4).seq = [] ∧
      (s.run 4).log.trace = (s.run 1).log.trace ++ [Event.setDir .input] := by
  have hrun {k : Nat} (hk : k ≤ 3) :
      s.run k = ((readTail.take k).foldl State.perform s).withSeq (readTail.drop k ++ [Cmd.readDone]) :=
    run_direct rfl hscript hseq hk
  have hlast : s.run 4 = (((s.run 3).withSeq []).withDec .idle).commit := by
    rw [run_add 3 1]
    exact run_succ_of_script_nil (c := .readDone) 0 (run_script_nil 3 hscript) (by rw [hrun (by omega)]; rfl)
  refine ⟨fun k hpos hlt => ?_, by rw [hlast]; rfl, by rw [hlast]; rfl,
    by rw [hlast, hrun (by omega), hrun (by omega)]; rfl⟩
  rw [hrun (by omega)]
  interval_cases k <;> rfl

/-- The phases of a read that nothing disturbs: its commands up to the acknowledge sample, `p` moves of its measurements,
and what it does after them. -/
theorem run_readCmds {s : State} (hwf : s.cfg.wf = true) (hscript : s.world.script = []) (hseq : s.seq = readCmds s.cfg) :
    ∃ p, 0 < p ∧ (s.run (10 + p + 4)).seq = [] ∧
      (∀ k ≤ 10 + p + 4, (s.run k).dec =
        if k = 0 then s.dec else if k < 8 then .resetPulse else if k < 10 then .waitAck
        else if k < 10 + p + 1 then .readBits else if k < 10 + p + 4 then .validate else .idle) ∧
      (s.run 1).log.trace = s.log.trace ∧
      (∀ k ∈ [7, 8], (s.run k).log.trace = s.log.trace
        ++ [Event.setDir .output, .write .low, .delay s.cfg.tResetLow, .setDir .input, .delay s.cfg.tAckWait]) ∧
      (∀ k ∈ [9, 10], (s.run k).log.trace = (s.run 8).log.trace ++ [Event.sample (s.run 8).nextLevel]) ∧
      (s.run (10 + p + 4)).log.trace = (s.run (10 + p + 1)).log.trace ++ [Event.setDir .input] := by
  have hquiet (k : Nat) : (s.run k).world.script = [] := run_script_nil k hscript
  obtain ⟨hreset, hwait, hseq8, htrace1, htrace7⟩ := run_readHead hscript (hseq.trans (readCmds_eq_append s.cfg))
  obtain ⟨hdec9, hdec10, hseq10, htrace9⟩ := run_ackSample (hquiet 8) hseq8
  simp only [← run_add] at hdec9 hdec10 hseq10 htrace9
  have hpolls : (measureCmds s.cfg).all Cmd.isMeasuring = true := by
    simp [measureCmds, Cmd.isMeasuring]
  have hsome : measureCmds s.cfg ≠ [] := by
    simp [measureCmds, (counts_of_wf hwf).1]
  obtain ⟨p, hp, hseqp, hbits⟩ := run_measuring rfl _ _ (hquiet 10) hpolls hseq10
  obtain ⟨hvalidate, hidle, hend, hlast⟩ := run_readTail (run_script_nil p (hquiet 10)) hseqp
  simp only [← run_add] at hbits hvalidate hidle hend hlast
  refine ⟨p, hp hsome, hend, fun k hk => ?_, htrace1, htrace7, fun k hk => ?_, hlast⟩
  · split_ifs with h0 h8 h10 hm hn
    · rw [h0]; rfl
    · exact hreset k (by omega) h8
    · obtain rfl | rfl : k = 8 ∨ k = 9 := by omega
      · exact hwait
      · exact hdec9.trans hwait
    · obtain ⟨j, rfl⟩ := Nat.exists_eq_add_of_le (Nat.le_of_not_lt h10)
      rw [hbits j (by omega), hdec10]
    · obtain ⟨j, rfl⟩ := Nat.exists_eq_add_of_le (show 10 + p ≤ k by omega)
      exact hvalidate j (by omega) (by omega)
    · rw [show k = 10 + p + 4 by omega, hidle]
  · simp only [List.mem_cons, List.not_mem_nil, or_false] at hk
    obtain ⟨j, rfl⟩ := Nat.exists_eq_add_of_le (show 8 ≤ k by omega)
    exact htrace9 j (by simp; omega)

/-- Settles O59: a host that does not reset leaves `dec_state`, the trace and the commands of a read as they are without
it. -/
theorem readPhases : Obligations.ReadPhases := by
  intro s ha hn
  have hrun (k : Nat) : ((s.started .sensorRead).run k).hostless = (s.hostless.started .sensorRead).run k := by
    rw [run_hostless k _ (started_noReset s _ hn), started_hostless]
  have hdec (k : Nat) : ((s.started .sensorRead).run k).dec = ((s.hostless.started .sensorRead).run k).dec := by
    rw [← hrun]; rfl
  have htrace (k : Nat) :
      ((s.started .sensorRead).run k).log.trace = ((s.hostless.started .sensorRead).run k).log.trace := by
    rw [← hrun]; rfl
  obtain ⟨p, hpos, hend, hphases, htrace1, htrace7, htrace9, hlast⟩ :=
    run_readCmds (s := s.hostless.started .sensorRead) ha.legal rfl rfl
  have hseq : ((s.started .sensorRead).run (10 + p + 4)).seq = [] := by
    rw [← hrun] at hend; exact hend
  have hexec : exec .sensorRead s = .next ((s.started .sensorRead).run (10 + p + 4)) := by
    rw [exec_of_accepts _ s ha, resume_eq_run_of_seq_nil hseq]
  simp only [hdec, htrace]
  exact ⟨10 + p + 1, 10 + p + 4, _, by omega, by omega, hexec, hphases, htrace1, htrace7, htrace9, hlast⟩

end Sys2Proof.Machine

/-! ### The host's next turn, to an idle engine -/

namespace Sys2Proof.Machine

/-- A legal, idle engine takes an operation word that its host offers next. -/
theorem step_of_fetch_some {s : State} (hwf : s.cfg.wf = true) (hb : s.busy = false) {w : Word}
    (hf : s.fetch = some w) : step s = runWord w s.popTurn := by
  simp [step, hwf, hb, hf]

/-- Any other turn has its effect. -/
theorem step_of_fetch_none {s : State} (hwf : s.cfg.wf = true) (hb : s.busy = false) (hf : s.fetch = none) :
    step s = .next s.otherTurn := by
  simp [step, hwf, hb, hf]

theorem fetch_of_write {s : State} {addr width : Nat} {w : Word} {ts : List Turn}
    (h : s.world.script = .act (.write addr width w) :: ts) :
    s.fetch = if regAt s.cfg addr width = some .op then some w else none := by
  simp only [State.fetch, h]

theorem popTurn_of_script {s : State} {x : Turn} {ts : List Turn} (h : s.world.script = x :: ts) :
    s.popTurn = s.withScript ts := by
  rw [State.popTurn, h, List.tail_cons]

theorem otherTurn_of_act {s : State} {a : HostAct} {ts : List Turn} (h : s.world.script = .act a :: ts) :
    s.otherTurn = (s.withScript ts).hostAct a := by
  rw [State.otherTurn, popTurn_of_script h]
  simp only [h]

theorem runWord_of_decode {w : Word} {i : Instr} (h : decode w = .ok i) (s : State) : runWord w s = exec i s := by
  simp only [runWord, h]

/-- Settles O6: the word is fetched, its turn taken off, and its operation executed. -/
theorem stepRunsDecodedOperation : Obligations.StepRunsDecodedOperation := by
  intro s addr w ts i hwf hb hscript hreg hdec
  have hf : s.fetch = some w := by rw [fetch_of_write hscript, if_pos hreg]
  rw [step_of_fetch_some hwf hb hf, popTurn_of_script hscript, runWord_of_decode hdec]

/-! ### Which address reaches which register -/

/-- Under an aligned base, a register is reached at its offset (10_state.md R40). -/
theorem regAt_offset {c : Config} (h : c.regBase % 4 = 0) (r : Reg) : regAt c (c.regBase + r.offset) 4 = some r := by
  have haligned : (c.regBase + r.offset) % 4 = 0 := by
    cases r <;> simp only [Reg.offset] <;> omega
  cases r <;> simp [regAt, haligned] <;> simp [Reg.offset]

/-- An offset that is no register's is unmapped (10_state.md R40). -/
theorem regAt_of_ne_offset {c : Config} {off : Nat} (width : Nat) (h : ∀ r : Reg, off ≠ r.offset) :
    regAt c (c.regBase + off) width = none := by
  simp [regAt, h]

theorem inWindow_offset {c : Config} {off : Nat} (h : off < 32) : inWindow c (c.regBase + off) = true := by
  simp [inWindow, h]

theorem hostRead_of_regAt {s : State} {addr : Nat} {r : Reg} (hw : inWindow s.cfg addr = true)
    (hr : regAt s.cfg addr 4 = some r) : s.hostAct (.read addr 4) = s.answerRead (s.regWord r) := by
  simp [State.hostAct, State.hostRead, hw, State.windowRead, hr]

theorem hostRead_of_regAt_none {s : State} {addr width : Nat} (hw : inWindow s.cfg addr = true)
    (hr : regAt s.cfg addr width = none) : s.hostAct (.read addr width) = s.answerRead 0 := by
  simp [State.hostAct, State.hostRead, hw, State.windowRead, hr]

/-- A read of a register answers its word (10_state.md R40, 20_memory.md R63). -/
theorem hostRead_offset {s : State} (h : s.cfg.regBase % 4 = 0) (r : Reg) :
    s.hostAct (.read (s.cfg.regBase + r.offset) 4) = s.answerRead (s.regWord r) :=
  hostRead_of_regAt (inWindow_offset (by cases r <;> decide)) (regAt_offset h r)

/-- A write that reaches neither OP nor STATUS is ignored (20_memory.md R63). -/
theorem hostWrite_ignored {s : State} {addr width : Nat} (w : Word) (hop : regAt s.cfg addr width ≠ some .op)
    (hstatus : regAt s.cfg addr width ≠ some .status) : s.hostAct (.write addr width w) = s := by
  rw [State.hostAct, State.hostWrite]
  split
  · next h => exact absurd h hop
  · next h => exact absurd h hstatus
  · rfl

theorem hostWrite_offset_ignored {s : State} (h : s.cfg.regBase % 4 = 0) {r : Reg} (w : Word) (hop : r ≠ .op)
    (hstatus : r ≠ .status) : s.hostAct (.write (s.cfg.regBase + r.offset) 4 w) = s :=
  hostWrite_ignored w (by simpa [regAt_offset h r] using hop) (by simpa [regAt_offset h r] using hstatus)

/-- What a write of STATUS does (10_state.md R43). -/
theorem hostWrite_status {s : State} {addr : Nat} (w : Word) (h : regAt s.cfg addr 4 = some .status) :
    s.hostAct (.write addr 4 w) = { s with ovr := if w.getLsbD 12 then false else s.ovr } := by
  simp only [State.hostAct, State.hostWrite, h, State.writeStatus]
  split <;> rfl

/-- What a write of OP does while an operation runs (10_state.md R41). -/
theorem hostWrite_op_of_busy {s : State} {addr : Nat} (w : Word) (hb : s.busy = true)
    (h : regAt s.cfg addr 4 = some .op) : s.hostAct (.write addr 4 w) = s.withOvr true := by
  simp [State.hostAct, State.hostWrite, h, hb]

/-- Settles O7: the word `withFetchWord` offers is fetched, and the offer taken off again leaves the idle engine. -/
theorem fetchWordIsRunNext : Obligations.FetchWordIsRunNext := by
  intro s w i hwf hbase hdec
  have hdecode : decode (tableWord 32 w) = .ok i := by
    rw [decodeTableWord_eq] at hdec
    cases hd : decode (tableWord 32 w) with
    | ok j => rw [hd] at hdec; cases hdec; rfl
    | error e => rw [hd] at hdec; cases hdec
  exact stepRunsDecodedOperation (s.withFetchWord 32 w) _ _ s.world.script i hwf rfl rfl (regAt_offset hbase .op) hdecode

/-- Settles O11: a busy engine drops the word, whether it is executed or written. -/
theorem wordWhileBusyIsDropped : Obligations.WordWhileBusyIsDropped := by
  refine ⟨fun s i hwf hb => ?_, fun s addr w hb hreg => hostWrite_op_of_busy w hb hreg⟩
  simp [exec_eq_issue, State.issue, hwf, hb]

/-- Settles O12: a write of STATUS is not fetched, and acts on `ovr` alone. -/
theorem statusWriteClearsOvr : Obligations.StatusWriteClearsOvr := by
  intro s addr w hreg
  refine ⟨hostWrite_status w hreg, fun ts hwf hb hscript => ?_⟩
  have hf : s.fetch = none := by simp [fetch_of_write hscript, hreg]
  rw [step_of_fetch_none hwf hb hf, otherTurn_of_act hscript]
  exact congrArg _ (hostWrite_status (s := s.withScript ts) w hreg)

/-- Settles O14: OP shows 0, 0x18 and 0x1C are no register's offset, and no other register but STATUS takes a write. -/
theorem unmappedOffsetsReadZero : Obligations.UnmappedOffsetsReadZero := by
  intro s w hbase
  have hunmapped {off : Nat} (h : off = 0x18 ∨ off = 0x1C) : regAt s.cfg (s.cfg.regBase + off) 4 = none :=
    regAt_of_ne_offset 4 fun r => by cases r <;> simp only [Reg.offset] <;> omega
  refine ⟨fun off hoff => ?_, fun off hoff => ?_⟩
  · simp only [List.mem_cons, List.not_mem_nil, or_false] at hoff
    rcases hoff with rfl | hoff
    · exact hostRead_offset hbase .op
    · exact hostRead_of_regAt_none (inWindow_offset (by omega)) (hunmapped hoff)
  · simp only [List.mem_cons, List.not_mem_nil, or_false] at hoff
    rcases hoff with rfl | rfl | rfl | rfl | hoff
    · exact hostWrite_offset_ignored hbase (r := .cursor) w (by decide) (by decide)
    · exact hostWrite_offset_ignored hbase (r := .reading) w (by decide) (by decide)
    · exact hostWrite_offset_ignored hbase (r := .frame0) w (by decide) (by decide)
    · exact hostWrite_offset_ignored hbase (r := .frame1) w (by decide) (by decide)
    · exact hostWrite_ignored w (by simp [hunmapped hoff]) (by simp [hunmapped hoff])

/-- Settles O15: each register is read at its offset. -/
theorem registerReadsReturnTheirWord : Obligations.RegisterReadsReturnTheirWord := fun _ h =>
  ⟨hostRead_offset h .status, hostRead_offset h .cursor, hostRead_offset h .reading, hostRead_offset h .frame0,
    hostRead_offset h .frame1⟩

end Sys2Proof.Machine

/-! ### The fields of a register word -/

namespace Sys2Proof

theorem getLsbD_placeAt (lo i : Nat) {n : Nat} (v : BitVec n) :
    (placeAt lo v).getLsbD i = (decide (lo ≤ i) && decide (i < 32) && v.getLsbD (i - lo)) := by
  rw [placeAt, BitVec.getLsbD_shiftLeft, BitVec.getLsbD_setWidth]
  by_cases hlo : lo ≤ i
  · by_cases hi : i < 32
    · simp [hlo, hi, show ¬ i < lo by omega, show i - lo < 32 by omega]
    · simp [hi]
  · simp [hlo, show i < lo by omega]

@[simp] theorem getElem_placeAt {lo i n : Nat} (v : BitVec n) (hi : i < 32) :
    (placeAt lo v)[i] = (decide (lo ≤ i) && v.getLsbD (i - lo)) := by
  rw [← BitVec.getLsbD_eq_getElem, getLsbD_placeAt, decide_eq_true hi, Bool.and_true]

/-- A field holds the value placed at it. -/
@[simp] theorem extractLsb'_placeAt {lo len n : Nat} (v : BitVec n) (hlen : lo + len ≤ 32) :
    (placeAt lo v).extractLsb' lo len = v.setWidth len := by
  ext i hi
  rw [BitVec.getElem_extractLsb', getLsbD_placeAt, BitVec.getElem_setWidth, Nat.add_sub_cancel_left]
  simp [show lo + i < 32 by omega]

/-- A value placed elsewhere leaves a field 0. -/
@[simp] theorem extractLsb'_placeAt_of_disjoint {lo start len n : Nat} (v : BitVec n)
    (h : lo + n ≤ start ∨ start + len ≤ lo) : (placeAt lo v).extractLsb' start len = 0#len := by
  ext i hi
  rw [BitVec.getElem_extractLsb', getLsbD_placeAt, BitVec.getElem_zero]
  rcases h with h | h
  · rw [BitVec.getLsbD_of_ge v _ (by omega), Bool.and_false]
  · simp [show ¬ lo ≤ start + i by omega]

end Sys2Proof

namespace Sys2Proof.Machine

/-- The fields of STATUS of more than one bit (10_state.md R42). -/
theorem statusWord_fields (s : State) :
    s.statusWord.extractLsb' 1 2 = s.lcd.code ∧ s.statusWord.extractLsb' 4 3 = s.dec.code ∧
      s.statusWord.extractLsb' 8 4 = s.res.lastErr.code ∧ s.statusWord.extractLsb' 13 19 = 0 := by
  simp (disch := omega) [State.statusWord, BitVec.extractLsb'_or]

/-- The single bits of STATUS (10_state.md R42). -/
theorem statusWord_bits (s : State) :
    s.statusWord.getLsbD 0 = s.busy ∧ s.statusWord.getLsbD 3 = s.backlight ∧ s.statusWord.getLsbD 7 = false ∧
      s.statusWord.getLsbD 12 = s.ovr := by
  simp [State.statusWord]

/-- Settles O16: each field of STATUS is the one value placed there, by its code. -/
theorem statusFields : Obligations.StatusFields := by
  intro s
  obtain ⟨hlcd, hdec, herr, hzero⟩ := statusWord_fields s
  obtain ⟨hbusy, hbl, hseven, hovr⟩ := statusWord_bits s
  refine ⟨hbusy, hlcd.trans ?_, hbl, hdec.trans ?_, hseven, herr.trans ?_, hovr, hzero⟩
  · cases s.lcd <;> rfl
  · cases s.dec <;> rfl
  · cases s.res.lastErr <;> rfl

/-- A read of a result register answers its word, and a write of it is ignored. -/
theorem hostRead_hostWrite_offset {s : State} (h : s.cfg.regBase % 4 = 0) {r : Reg} (hop : r ≠ .op)
    (hstatus : r ≠ .status) :
    s.hostAct (.read (s.cfg.regBase + r.offset) 4) = s.answerRead (s.regWord r) ∧
      ∀ w, s.hostAct (.write (s.cfg.regBase + r.offset) 4 w) = s :=
  ⟨hostRead_offset h r, fun w => hostWrite_offset_ignored h w hop hstatus⟩

/-- Settles O17: each field is the one value placed there, and each register is read at its offset and takes no write. -/
theorem resultRegisterFields : Obligations.ResultRegisterFields := by
  intro s
  refine ⟨?_, ?_, ?_, ?_, fun hbase p hp => ?_⟩
  · simp (disch := omega) [State.cursorWord, BitVec.extractLsb'_or]
  · simp (disch := omega) [State.readingWord, BitVec.extractLsb'_or]
  · simp (disch := omega) [State.frame0Word, BitVec.extractLsb'_or]
  · simp (disch := omega) [State.frame1Word, BitVec.extractLsb'_or]
  · simp only [List.mem_cons, List.not_mem_nil, or_false] at hp
    rcases hp with rfl | rfl | rfl | rfl
    · exact hostRead_hostWrite_offset hbase (r := .cursor) (by decide) (by decide)
    · exact hostRead_hostWrite_offset hbase (r := .reading) (by decide) (by decide)
    · exact hostRead_hostWrite_offset hbase (r := .frame0) (by decide) (by decide)
    · exact hostRead_hostWrite_offset hbase (r := .frame1) (by decide) (by decide)

/-! ### The register words after reset -/

/-- What the registers show when every piece of state has its reset value. -/
theorem State.AtReset.words {c : Config} {t : State} (h : t.AtReset c) :
    t.statusWord = (if c.backlightInit then 8 else 0) ∧ t.cursorWord = 0 ∧
      t.readingWord = c.sentinelHum.setWidth 32 ||| c.sentinelTemp.setWidth 32 <<< 8 ∧
      t.frame0Word = 0 ∧ t.frame1Word = 0 := by
  refine ⟨?_, ?_, ?_, ?_, ?_⟩
  · rw [State.statusWord, h.busy, h.lcd, h.backlight, h.dec, h.lastErr, h.ovr]
    cases c.backlightInit <;> decide
  · rw [State.cursorWord, h.cursorRow, h.cursorCol]
    decide
  · rw [State.readingWord, h.hum, h.temp, h.valid]
    simp [placeAt]
  · rw [State.frame0Word, h.frame]
    decide
  · rw [State.frame1Word, h.frame, h.bitCount, h.ackSeen]
    decide

/-- Settles O20: both states are at reset, which gives the register words, and a reset is no word to fetch. -/
theorem resetValues : Obligations.ResetValues := by
  refine ⟨fun s t c h => ?_, fun s => ⟨rfl, rfl⟩, fun s ts hwf hb hscript => ?_⟩
  · have ht : t.AtReset c := by
      rcases h with ⟨rfl, rfl⟩ | ⟨rfl, rfl⟩
      · exact hardReset_atReset s
      · exact reset_atReset
    exact ⟨ht, ht.words⟩
  · have hf : s.fetch = none := by simp only [State.fetch, hscript]
    rw [step_of_fetch_none hwf hb hf, otherTurn_of_act hscript]
    rfl

/-- Settles O22: the initial state is its own reset, and a reset under a legal configuration meets the invariant. -/
theorem resetMeetsInvariant : Obligations.ResetMeetsInvariant :=
  ⟨hardReset_inv (s := State.reset) (by decide), fun _ => hardReset_inv⟩

end Sys2Proof.Machine

/-! ### Narrow and misaligned accesses -/

namespace Sys2Proof.Machine

/-- An access of another width than 32 bits, or at an address not divisible by 4, reaches no register (20_memory.md
R62). -/
theorem regAt_of_narrow (c : Config) {addr width : Nat} (h : width ≠ 4 ∨ addr % 4 ≠ 0) : regAt c addr width = none :=
  if_neg fun ⟨hwidth, haddr⟩ => h.elim (· hwidth) (· haddr)

/-- Settles O13: such an access reaches no register, in the idle engine's step as well. -/
theorem narrowAccessHasNoEffect : Obligations.NarrowAccessHasNoEffect := by
  intro s addr width w h hwindow
  have hreg : regAt s.cfg addr width = none := regAt_of_narrow s.cfg h
  have hwrite {u : State} (hu : u.cfg = s.cfg) : u.hostAct (.write addr width w) = u :=
    hostWrite_ignored w (by simp [hu, hreg]) (by simp [hu, hreg])
  have hread {u : State} (hu : u.cfg = s.cfg) : u.hostAct (.read addr width) = u.answerRead 0 :=
    hostRead_of_regAt_none (by rw [hu, hwindow]) (by rw [hu, hreg])
  refine ⟨hwrite rfl, hread rfl, fun ts hwf hb => ⟨fun hscript => ?_, fun hscript => ?_⟩⟩
  · have hf : s.fetch = none := by simp [fetch_of_write hscript, hreg]
    rw [step_of_fetch_none hwf hb hf, otherTurn_of_act hscript, hwrite (s.withScript_cfg ts)]
  · have hf : s.fetch = none := by simp only [State.fetch, hscript]
    rw [step_of_fetch_none hwf hb hf, otherTurn_of_act hscript, hread (s.withScript_cfg ts)]

/-! ### The signals of an expander byte -/

/-- The bit of a placed signal at a position. -/
theorem getLsbD_signalAt (b : Bool) (pos i : Fin 8) : (signalAt b pos).getLsbD i = (b && decide (pos = i)) := by
  cases b with
  | false => simp [signalAt]
  | true => simp [signalAt, Fin.ext_iff, eq_comm]

theorem nodup_positions_of_wf {c : Config} (h : c.wf = true) : c.wireMap.positions.Nodup := by
  simp only [Config.wf, WireMap.wf, Bool.and_eq_true, decide_eq_true_eq] at h
  obtain ⟨-, -, -, -, -, -, hnodup⟩ := h
  exact hnodup

/-- In a well-formed wire map no other signal stands at R/W's bit or at BL's (30_encoding.md R85, R86). -/
theorem getLsbD_xbyte_rw_bl {m : WireMap} (h : m.positions.Nodup) (n : Nibble) (rs en bl : Bool) :
    (xbyte m n rs en bl).getLsbD m.rw = false ∧ (xbyte m n rs en bl).getLsbD m.bl = bl := by
  simp only [WireMap.positions, List.nodup_cons, List.mem_cons, List.not_mem_nil, or_false, not_or] at h
  simp only [xbyte, BitVec.getLsbD_or, getLsbD_signalAt]
  obtain ⟨⟨hrsrw, -, hrsbl, -⟩, ⟨hrwen, hrwbl, hrwd⟩, ⟨henbl, -⟩, hbld, -⟩ := h
  constructor
  · simp [hrsrw, Ne.symm hrwen, Ne.symm hrwbl, hrwd, eq_comm (b := m.rw)]
  · simp [hrsbl, hrwbl, henbl, hbld, eq_comm (b := m.bl)]

/-! ### What an operation writes to the bus -/

/-- The expander bytes of a nibble transfer with a given backlight (40_nibble_transport.md R110, R111). -/
def IsNibbleByte (m : WireMap) (bl : Bool) (b : Byte) : Prop := ∃ n rs en, b = xbyte m n rs en bl

/-- Every byte among some commands is one of a nibble transfer. -/
def WritesNibbles (m : WireMap) (bl : Bool) (cs : List Cmd) : Prop := ∀ b, Cmd.busWrite b ∈ cs → IsNibbleByte m bl b

theorem WritesNibbles.append {m : WireMap} {bl : Bool} {cs cs' : List Cmd} (h : WritesNibbles m bl cs)
    (h' : WritesNibbles m bl cs') : WritesNibbles m bl (cs ++ cs') :=
  fun b hb => (List.mem_append.mp hb).elim (h b) (h' b)

theorem writesNibbles_of_busWrites_eq_zero {m : WireMap} {bl : Bool} {cs : List Cmd} (h : busWrites cs = 0) :
    WritesNibbles m bl cs :=
  fun b hb => absurd rfl (List.countP_eq_zero.mp h (.busWrite b) hb)

theorem nibbleCmds_writesNibbles (c : Config) (bl : Bool) (n : Nibble) (rs : Bool) :
    WritesNibbles c.wireMap bl (nibbleCmds c bl n rs) := by
  intro b hb
  simp only [nibbleCmds, List.mem_cons, Cmd.busWrite.injEq, reduceCtorEq, List.not_mem_nil, false_or, or_false] at hb
  rcases hb with hb | hb
  · exact ⟨n, rs, true, hb⟩
  · exact ⟨n, rs, false, hb⟩

theorem xferCmds_writesNibbles (c : Config) (bl : Bool) (v : Byte) (rs : Bool) :
    WritesNibbles c.wireMap bl (xferCmds c bl v rs) :=
  (nibbleCmds_writesNibbles c bl _ rs).append (nibbleCmds_writesNibbles c bl _ rs)

theorem initCmds_writesNibbles (c : Config) (bl : Bool) : WritesNibbles c.wireMap bl (initCmds c bl) := by
  have wait (t : Nat) : WritesNibbles c.wireMap bl [.delay t] := writesNibbles_of_busWrites_eq_zero rfl
  have nibble (n : Nibble) := nibbleCmds_writesNibbles c bl n false
  have xfer (v : Byte) := xferCmds_writesNibbles c bl v false
  exact (wait _).append (nibble _) |>.append (wait _) |>.append (nibble _) |>.append (wait _) |>.append (nibble _)
    |>.append (nibble _) |>.append (xfer _) |>.append (xfer _) |>.append (xfer _) |>.append (wait _) |>.append (xfer _)

theorem turnedAway_writesNibbles (s : State) (e : ErrCode) :
    WritesNibbles s.cfg.wireMap s.backlight (s.turnedAway e).seq :=
  writesNibbles_of_busWrites_eq_zero rfl

/-- A read writes nothing to the bus (42_sensor_decoder.md R185). -/
theorem busWrites_readCmds (c : Config) : busWrites (readCmds c) = 0 := by
  simp [busWrites, readCmds]

/-- Every operation writes bytes of nibble transfers, with the backlight as it is (20_memory.md R60). -/
theorem started_writesNibbles (s : State) (i : Instr) : WritesNibbles s.cfg.wireMap s.backlight (s.started i).seq := by
  have lcd (w : Results) {cs : List Cmd} (h : WritesNibbles s.cfg.wireMap s.backlight cs) :
      WritesNibbles s.cfg.wireMap s.backlight (s.lcdStart w cs).seq := by
    unfold State.lcdStart
    split
    · exact h.append (writesNibbles_of_busWrites_eq_zero rfl)
    · exact turnedAway_writesNibbles s _
  cases i with
  | init =>
    simp only [State.started, startInit]
    split
    · exact (initCmds_writesNibbles _ _).append (writesNibbles_of_busWrites_eq_zero rfl)
    · exact turnedAway_writesNibbles s _
  | command v => exact lcd _ (xferCmds_writesNibbles _ _ _ _)
  | data v => exact lcd _ (xferCmds_writesNibbles _ _ _ _)
  | clear => exact lcd _ ((xferCmds_writesNibbles _ _ _ _).append (writesNibbles_of_busWrites_eq_zero rfl))
  | setCursor r c => exact lcd _ (xferCmds_writesNibbles _ _ _ _)
  | sensorRead => exact writesNibbles_of_busWrites_eq_zero (busWrites_readCmds s.cfg)

/-- The state `t` comes after `s` in a run: the bus writes between them go to `P_I2C_ADDR` and are among the commands of
`s`, as are those `t` has still to perform. -/
structure State.WritesTo (s t : State) : Prop where
  cfg : t.cfg = s.cfg
  pending : ∀ b, Cmd.busWrite b ∈ t.seq → Cmd.busWrite b ∈ s.seq
  traced : ∃ es, t.log.trace = s.log.trace ++ es ∧
    ∀ a b r, Event.busWrite a b r ∈ es → a = s.cfg.i2cAddr ∧ Cmd.busWrite b ∈ s.seq

theorem State.WritesTo.refl (s : State) : s.WritesTo s := ⟨rfl, fun _ => id, [], by simp, by simp⟩

theorem State.WritesTo.trans {s t u : State} (h : s.WritesTo t) (h' : t.WritesTo u) : s.WritesTo u := by
  obtain ⟨hcfg, hpending, es, htrace, hes⟩ := h
  obtain ⟨hcfg', hpending', es', htrace', hes'⟩ := h'
  refine ⟨hcfg'.trans hcfg, fun b hb => hpending b (hpending' b hb), es ++ es', by simp [htrace', htrace], ?_⟩
  intro a b r he
  rcases List.mem_append.mp he with he | he
  · exact hes a b r he
  · obtain ⟨ha, hb⟩ := hes' a b r he
    exact ⟨ha.trans (by rw [hcfg]), hpending b hb⟩

/-- A command adds to the trace; a bus write it adds goes to `P_I2C_ADDR` and has the command's own byte. -/
theorem perform_trace (c : Cmd) (s : State) :
    ∃ es, (s.perform c).log.trace = s.log.trace ++ es ∧
      ∀ a b r, Event.busWrite a b r ∈ es → a = s.cfg.i2cAddr ∧ c = .busWrite b := by
  cases c with
  | busWrite v =>
    have written (r : BusAnswer) : ∀ a b r', Event.busWrite a b r' ∈ [Event.busWrite s.cfg.i2cAddr v r] →
        a = s.cfg.i2cAddr ∧ Cmd.busWrite v = .busWrite b := by
      intro a b r' he
      cases List.mem_singleton.mp he
      exact ⟨rfl, rfl⟩
    simp only [State.perform, State.performWrite]
    split
    · exact ⟨_, by simp, written .ok⟩
    · exact ⟨_, by simp, written .err⟩
  | delay t => exact ⟨[.delay t], rfl, by simp⟩
  | setDir d => exact ⟨[.setDir d], rfl, by simp⟩
  | pinWrite l => exact ⟨[.write l], rfl, by simp⟩
  | ackSample => exact ⟨[.sample s.nextLevel], by simp [State.perform, State.performAck], by simp⟩
  | poll i n => exact ⟨[.sample s.nextLevel], by simp [State.perform, performPoll_log], by simp⟩
  | _ => exact ⟨[], (List.append_nil _).symm, by simp⟩

theorem advance_writesTo (s : State) : s.WritesTo s.advance := by
  cases hseq : s.seq with
  | nil =>
    have hstay : s.advance = s := by simp only [State.advance, hseq]
    rw [hstay]
    exact .refl s
  | cons c cs =>
    rw [advance_cons hseq]
    obtain ⟨es, htrace, hes⟩ := perform_trace c (s.withSeq cs)
    refine ⟨perform_cfg c _, fun b hb => ?_, es, htrace, fun a b r he => ?_⟩
    · have hmem : Cmd.busWrite b ∈ cs := by simpa using mem_perform_seq hb
      rw [hseq]
      exact List.mem_cons_of_mem c hmem
    · obtain ⟨ha, rfl⟩ := hes a b r he
      exact ⟨ha, by simp [hseq]⟩

theorem gap_writesTo (s : State) : s.WritesTo s.gap := by
  rcases gap_cases s with hgap | ⟨u, -, hgap, hu⟩
  · have hseq := seq_of_hostless _ _ hgap
    exact ⟨gap_cfg s, fun b hb => hseq ▸ hb, [], by simp [trace_of_hostless _ _ hgap], by simp⟩
  · exact ⟨gap_cfg s, by simp [hgap], [], by simp [hgap, trace_of_hostless _ _ hu], by simp⟩

/-- A running operation writes to the bus only the bytes among its commands, whatever bus and host do. -/
theorem resume_writesTo (s : State) : s.WritesTo s.resume :=
  run_induct s.WritesTo (fun u _ h => h.trans ((gap_writesTo u).trans (advance_writesTo u.gap))) _ s (.refl s)

/-- What an operation that writes nibbles writes: to `P_I2C_ADDR`, with R/W 0 and the backlight. -/
theorem write_of_resume {s : State} {bl : Bool} (hwf : s.cfg.wf = true) (hs : WritesNibbles s.cfg.wireMap bl s.seq)
    {a : BitVec 7} {b : Byte} {r : BusAnswer} (he : Event.busWrite a b r ∈ s.newEvents s.resume) :
    a = s.cfg.i2cAddr ∧ b.getLsbD s.cfg.wireMap.rw = false ∧ b.getLsbD s.cfg.wireMap.bl = bl := by
  obtain ⟨es, htrace, hes⟩ := (resume_writesTo s).traced
  rw [State.newEvents, htrace, List.drop_left] at he
  obtain ⟨ha, hb⟩ := hes a b r he
  obtain ⟨n, rs, en, rfl⟩ := hs b hb
  exact ⟨ha, getLsbD_xbyte_rw_bl (nodup_positions_of_wf hwf) n rs en bl⟩

theorem hostAct_trace (s : State) (a : HostAct) : (s.hostAct a).log.trace = s.log.trace := by
  by_cases ha : a = .reset
  · rw [ha]; rfl
  · exact trace_of_hostless _ _ (hostAct_hostless s a ha)

/-- Settles O43: between operations a step writes to the bus only in an accepted operation, which writes nibbles. -/
theorem everyBusByteCarriesBacklight : Obligations.EveryBusByteCarriesBacklight := by
  intro s t hs h a b r he
  rcases step_next_cases h with ⟨hb, -⟩ | ⟨-, ⟨i, rfl⟩ | rfl | ⟨act, rfl⟩ | rfl⟩
  · rw [hs.idle] at hb; cases hb
  · have hcfg : (s.popTurn.started i).cfg = s.cfg := started_cfg _ i
    have hnew : s.newEvents (s.popTurn.started i).resume =
        (s.popTurn.started i).newEvents (s.popTurn.started i).resume := by
      rw [State.newEvents, State.newEvents, started_log]; rfl
    rw [hnew] at he
    rw [← hcfg]
    refine write_of_resume (by rw [hcfg]; exact hs.legal) ?_ he
    rw [hcfg]
    exact started_writesNibbles s.popTurn i
  · exact write_of_resume (s := s.popTurn.turnedAway .illegalOp) hs.legal (turnedAway_writesNibbles s.popTurn _) he
  · rw [State.newEvents, hostAct_trace] at he
    simp [State.popTurn] at he
  · simp [State.newEvents, State.popTurn] at he

/-! ### The frame a pulse train spells -/

/-- A shift brings the new bit in at bit 0 and moves the others up by one (42_sensor_decoder.md R191). -/
theorem getLsbD_shiftIn (b : Byte) (bit : Bool) {i : Nat} (hi : i < 8) :
    (shiftIn b bit).getLsbD i = if i = 0 then bit else b.getLsbD (i - 1) := by
  cases i with
  | zero => simp [shiftIn]
  | succ i => simp [shiftIn, hi, BitVec.getLsbD_eq_getElem (show i < 8 by omega)]

/-- After `n` shifts the last bit stands in bit 0, the one before in bit 1, and so on. -/
theorem getLsbD_foldl_shiftIn (bit : Nat → Bool) (b : Byte) {n i : Nat} (hn : i < n) (hi : i < 8) :
    ((List.range n).foldl (fun x j => shiftIn x (bit j)) b).getLsbD i = bit (n - 1 - i) := by
  induction n generalizing i with
  | zero => cases hn
  | succ n ih =>
    rw [List.range_succ, List.foldl_append, List.foldl_cons, List.foldl_nil, getLsbD_shiftIn _ _ hi]
    split
    · next h0 => simp [h0]
    · rw [ih (by omega) (by omega)]
      congr 1
      omega

/-- Eight shifts, first bit first, spell a byte MSB first (20_memory.md R67). -/
theorem foldl_shiftIn_bits (v b : Byte) : (List.range 8).foldl (fun x j => shiftIn x (v.getLsbD (7 - j))) b = v := by
  apply BitVec.eq_of_getLsbD_eq
  intro i hi
  rw [getLsbD_foldl_shiftIn (fun j => v.getLsbD (7 - j)) b hi hi]
  congr 1
  omega

/-- The first `k` bits of a stream, recorded one after another. -/
def Frame.recordBits (g : Frame) (bit : Nat → Bool) (k : Nat) : Frame :=
  (List.range k).foldl (fun g j => g.record j (bit j)) g

theorem Frame.recordBits_succ (g : Frame) (bit : Nat → Bool) (k : Nat) :
    g.recordBits bit (k + 1) = (g.recordBits bit k).record k (bit k) := by
  simp [Frame.recordBits, List.range_succ]

/-- Recording depends on the recorded bits alone. -/
theorem Frame.recordBits_congr (g : Frame) {bit bit' : Nat → Bool} {k : Nat} (h : ∀ j < k, bit j = bit' j) :
    g.recordBits bit k = g.recordBits bit' k := by
  induction k with
  | zero => rfl
  | succ k ih =>
    rw [recordBits_succ, recordBits_succ, ih fun j hj => h j (by omega), h k (by omega)]

/-- Each of the five bytes takes eight of the 40 bits. -/
theorem Frame.recordBits_forty (g : Frame) (bit : Nat → Bool) :
    g.recordBits bit 40 =
      { humInt := (List.range 8).foldl (fun x j => shiftIn x (bit j)) g.humInt
        humFrac := (List.range 8).foldl (fun x j => shiftIn x (bit (8 + j))) g.humFrac
        tempInt := (List.range 8).foldl (fun x j => shiftIn x (bit (16 + j))) g.tempInt
        tempFrac := (List.range 8).foldl (fun x j => shiftIn x (bit (24 + j))) g.tempFrac
        checksum := (List.range 8).foldl (fun x j => shiftIn x (bit (32 + j))) g.checksum } := by
  simp [Frame.recordBits, List.range_succ, Frame.record]

/-- The 40 bits of a frame's stream spell the frame, whatever was there before. -/
theorem Frame.recordBits_streamBit (f g : Frame) : g.recordBits f.streamBit 40 = f := by
  rw [recordBits_forty]
  exact congr (congr (congr (congr (congrArg Frame.mk (foldl_shiftIn_bits f.humInt g.humInt))
    (foldl_shiftIn_bits f.humFrac g.humFrac)) (foldl_shiftIn_bits f.tempInt g.tempInt))
    (foldl_shiftIn_bits f.tempFrac g.tempFrac)) (foldl_shiftIn_bits f.checksum g.checksum)

/-- The measurements whose high pulse is a bit: 4, 6 and so on up to 82 (42_sensor_decoder.md R184). -/
theorem carriesBit_iff {c : Config} (h : c.wf = true) (i : Nat) :
    carriesBit c i = true ↔ 4 ≤ i ∧ i % 2 = 0 ∧ i ≤ 82 := by
  obtain ⟨-, hp, hb, -, -⟩ := counts_of_wf h
  simp [carriesBit, hp, hb, and_assoc]

theorem measured_of_carriesBit {c : Config} {i : Nat} (h : carriesBit c i = true) (d : Nat) (w : Results) :
    w.measured c i d =
      { w with frame := w.frame.record w.bitCount.toNat (pulseBit c d), bitCount := w.bitCount + 1 } := if_pos h

theorem measured_of_not_carriesBit {c : Config} {i : Nat} (h : ¬ carriesBit c i = true) (d : Nat) (w : Results) :
    w.measured c i d = w := if_neg h

/-- A train goes on from what its first durations leave. -/
theorem readTrain_durations_append (c : Config) (ds : List Nat) (os : List Measured) (i : Nat) (w : Results) :
    readTrain c i (ds.map .duration ++ os) w = readTrain c (i + ds.length) os (readTrain c i (ds.map .duration) w) := by
  induction ds generalizing i w with
  | nil => rfl
  | cons d ds ih =>
    rw [List.map_cons, List.cons_append, readTrain, readTrain, ih, List.length_cons, Nat.add_right_comm, Nat.add_assoc]

/-- What the first `m` measurements leave, when measurement `i` lasts `d i` polls. -/
def readDurations (c : Config) (d : Nat → Nat) (w : Results) (m : Nat) : Results :=
  readTrain c 0 ((List.range m).map fun i => .duration (d i)) w

theorem readDurations_succ (c : Config) (d : Nat → Nat) (w : Results) (m : Nat) :
    readDurations c d w (m + 1) = (readDurations c d w m).measured c m (d m) := by
  have h := readTrain_durations_append c ((List.range m).map d) [.duration (d m)] 0 w
  simpa [readDurations, List.range_succ, Function.comp_def, readTrain] using h

/-- The preamble leaves everything; each pair of measurements after it records the bit of its high pulse. -/
theorem readDurations_pairs {c : Config} (h : c.wf = true) (d : Nat → Nat) {w : Results} (hw : w.bitCount = 0) {k : Nat}
    (hk : k ≤ 40) :
    readDurations c d w (4 + 2 * k) =
      { w with
        frame := w.frame.recordBits (fun j => pulseBit c (d (4 + 2 * j))) k
        bitCount := BitVec.ofNat 6 k } := by
  have skips {i : Nat} (hi : i < 4 ∨ i % 2 = 1) (w' : Results) : w'.measured c i (d i) = w' :=
    measured_of_not_carriesBit (by rw [carriesBit_iff h]; omega) _ _
  induction k with
  | zero =>
    have hpreamble : readDurations c d w 4 = w := by
      rw [readDurations_succ, skips (by omega), readDurations_succ, skips (by omega), readDurations_succ,
        skips (by omega), readDurations_succ, skips (by omega)]
      rfl
    rw [hpreamble, show BitVec.ofNat 6 0 = w.bitCount from hw.symm]
    rfl
  | succ k ih =>
    have hcarries : carriesBit c (4 + 2 * k) = true := by rw [carriesBit_iff h]; omega
    have hcount : (BitVec.ofNat 6 k).toNat = k := by rw [BitVec.toNat_ofNat, Nat.mod_eq_of_lt (by omega)]
    rw [show 4 + 2 * (k + 1) = 4 + 2 * k + 1 + 1 by omega, readDurations_succ, skips (.inr (by omega)),
      readDurations_succ, ih (by omega), measured_of_carriesBit hcarries, Frame.recordBits_succ]
    simp only [hcount, BitVec.ofNat_add]
    rfl

/-- Settles O46: the 40 pairs record the frame's stream, and measurement 84 is no bit's. -/
theorem completeTrainSpellsFrame : Obligations.CompleteTrainSpellsFrame := by
  intro c w f d hwf hw hbits
  have hlast : ¬ carriesBit c 84 = true := by simp [carriesBit_iff hwf]
  have hspells : w.frame.recordBits (fun k => pulseBit c (d (4 + 2 * k))) 40 = f :=
    (w.frame.recordBits_congr hbits).symm.trans (f.recordBits_streamBit w.frame)
  have htrain : readDurations c d w 85 = { w with frame := f, bitCount := 40 } := by
    rw [readDurations_succ, measured_of_not_carriesBit hlast,
      readDurations_pairs (k := 40) hwf d hw (by omega), hspells]
    rfl
  exact ⟨congrArg Results.frame htrain, congrArg Results.bitCount htrain⟩

end Sys2Proof.Machine

/-! ### The rows of the opcode map -/

namespace Sys2Proof

theorem word_eq_iff_fields {w w' : Word} :
    w = w' ↔ opcOf w = opcOf w' ∧ fieldA w = fieldA w' ∧ fieldB w = fieldB w' ∧ fieldZ w = fieldZ w' :=
  ⟨fun h => h ▸ ⟨rfl, rfl, rfl, rfl⟩, fun ⟨ho, ha, hb, hz⟩ => word_eq_of_fields ho ha hb hz⟩

/-- A row covers a word when it covers each of its four fields (30_encoding.md R84). -/
theorem OpRow.covers_iff (r : OpRow) (w : Word) :
    r.covers w = true ↔
      opcOf w &&& opcOf r.mask = opcOf r.pattern ∧ fieldA w &&& fieldA r.mask = fieldA r.pattern ∧
        fieldB w &&& fieldB r.mask = fieldB r.pattern ∧ fieldZ w &&& fieldZ r.mask = fieldZ r.pattern := by
  rw [OpRow.covers, beq_iff_eq, word_eq_iff_fields]
  simp only [opcOf, fieldA, fieldB, fieldZ, BitVec.extractLsb'_and]

/-- Every row fixes the whole opcode (R83). -/
theorem opcOf_of_covers {r : OpRow} (hr : r ∈ opRows) {w : Word} (h : r.covers w = true) :
    opcOf w = opcOf r.pattern := by
  have hmask : ∀ r ∈ opRows, opcOf r.mask = BitVec.allOnes 8 := by decide
  rw [OpRow.covers_iff, hmask r hr, BitVec.and_allOnes] at h
  exact h.1

/-- Two rows with one opcode are one row. -/
theorem eq_of_opcOf_pattern_eq {r r' : OpRow} (hr : r ∈ opRows) (hr' : r' ∈ opRows)
    (h : opcOf r.pattern = opcOf r'.pattern) : r = r' :=
  List.inj_on_of_nodup_map (f := fun r : OpRow => opcOf r.pattern) (by decide) hr hr' h

/-- Settles O4: the rows have distinct opcodes, and a row covers words of its own opcode alone. -/
theorem opcodeRowsDisjoint : Obligations.OpcodeRowsDisjoint := by
  have hopc : opRows.Pairwise fun a b => opcOf a.pattern ≠ opcOf b.pattern := by decide
  refine hopc.imp_of_mem fun ha hb hne w ⟨hcovers, hcovers'⟩ => hne ?_
  rw [← opcOf_of_covers ha hcovers, opcOf_of_covers hb hcovers']

/-- The row the decoder finds is one of the map and covers the word. -/
theorem mem_and_covers_of_find? {w : Word} {r : OpRow} (h : opRows.find? (fun r => r.covers w) = some r) :
    r ∈ opRows ∧ r.covers w = true :=
  ⟨List.mem_of_find?_eq_some h, List.find?_some (p := fun r : OpRow => r.covers w) h⟩

/-- The decoder takes the one row that covers the word (R84). -/
theorem decode_of_covers {r : OpRow} (hr : r ∈ opRows) {w : Word} (h : r.covers w = true) :
    decode w = .ok (r.build (fieldA w) (fieldB w)) := by
  unfold decode
  split
  · next r' hfind =>
    obtain ⟨hr', h'⟩ := mem_and_covers_of_find? hfind
    rw [eq_of_opcOf_pattern_eq hr hr' ((opcOf_of_covers hr h).symm.trans (opcOf_of_covers hr' h'))]
  · next hfind => exact absurd h (List.find?_eq_none.mp hfind r hr)

/-- A word that decodes is covered by a row, which builds the operation from its operand fields. -/
theorem covers_of_decode {w : Word} {i : Instr} (h : decode w = .ok i) :
    ∃ r ∈ opRows, r.covers w = true ∧ r.build (fieldA w) (fieldB w) = i := by
  unfold decode at h
  split at h
  · next r hfind =>
    obtain ⟨hr, hcovers⟩ := mem_and_covers_of_find? hfind
    exact ⟨r, hr, hcovers, Except.ok.inj h⟩
  · split at h <;> cases h

/-- A word decodes to nothing when no row covers it (R90). -/
theorem decode_error_iff (w : Word) : (∃ e, decode w = .error e) ↔ ¬ ∃ r ∈ opRows, r.covers w = true := by
  constructor
  · rintro ⟨e, he⟩ ⟨r, hr, h⟩
    rw [decode_of_covers hr h] at he
    cases he
  · intro h
    cases hd : decode w with
    | error e => exact ⟨e, rfl⟩
    | ok i =>
      obtain ⟨r, hr, hcovers, -⟩ := covers_of_decode hd
      exact absurd ⟨r, hr, hcovers⟩ h

/-- A row covers exactly the words of the operations it builds (R92). -/
theorem eq_encode_build_iff_covers {r : OpRow} (hr : r ∈ opRows) (w : Word) :
    w = encode (r.build (fieldA w) (fieldB w)) ↔ r.covers w = true := by
  have whole (x : Byte) : x &&& 255#8 = x := BitVec.and_allOnes
  rw [word_eq_iff_fields, OpRow.covers_iff]
  simp only [opRows, List.mem_cons, List.not_mem_nil, or_false] at hr
  rcases hr with rfl | rfl | rfl | rfl | rfl | rfl <;> simp [encode] <;> simp [opcOf, fieldA, fieldB, fieldZ, whole]

/-- Settles O1: some row builds the operation from its word's fields, so it covers the word. -/
theorem decodeOfEncode : Obligations.DecodeOfEncode := by
  have built (i : Instr) : ∃ r ∈ opRows, r.build (fieldA (encode i)) (fieldB (encode i)) = i := by
    cases i <;> simp [opRows, encode]
  intro i
  obtain ⟨r, hr, hbuild⟩ := built i
  rw [decode_of_covers hr ((eq_encode_build_iff_covers hr _).mp (by rw [hbuild])), hbuild]

/-- Settles O2: the row that covers the word builds an operation with that word. -/
theorem encodeOfDecode : Obligations.EncodeOfDecode := by
  intro w i h
  obtain ⟨r, hr, hcovers, rfl⟩ := covers_of_decode h
  exact ((eq_encode_build_iff_covers hr w).mpr hcovers).symm

/-- The opcodes of no row (30_encoding.md R90). -/
theorem not_mem_legalOpcodes_iff (o : Byte) :
    o ∉ legalOpcodes ↔ o = 0x00 ∨ (0x06 ≤ o ∧ o ≤ 0x0F) ∨ 0x11 ≤ o := by
  simp only [legalOpcodes, List.mem_cons, List.not_mem_nil, or_false]
  bv_omega

/-- The words of the opcode map: a legal opcode, with the fields its row wants zero (R83). -/
theorem exists_covers_iff (w : Word) :
    (∃ r ∈ opRows, r.covers w = true) ↔
      (opcOf w = 0x01 ∧ fieldA w = 0 ∧ fieldB w = 0 ∧ fieldZ w = 0) ∨ (opcOf w = 0x02 ∧ fieldB w = 0 ∧ fieldZ w = 0) ∨
      (opcOf w = 0x03 ∧ fieldB w = 0 ∧ fieldZ w = 0) ∨ (opcOf w = 0x04 ∧ fieldA w = 0 ∧ fieldB w = 0 ∧ fieldZ w = 0) ∨
      (opcOf w = 0x05 ∧ fieldZ w = 0) ∨ (opcOf w = 0x10 ∧ fieldA w = 0 ∧ fieldB w = 0 ∧ fieldZ w = 0) := by
  have hbuilt : (∃ r ∈ opRows, r.covers w = true) ↔ ∃ r ∈ opRows, w = encode (r.build (fieldA w) (fieldB w)) :=
    exists_congr fun r => and_congr_right fun hr => (eq_encode_build_iff_covers hr w).symm
  rw [hbuilt]
  simp [opRows, encode, word_eq_iff_fields]

/-- Settles O3: a word decodes to nothing when no row covers it, by its opcode or, that being legal, by a field. -/
theorem illegalWordsAreThoseListed : Obligations.IllegalWordsAreThoseListed := by
  intro w
  rw [decode_error_iff, exists_covers_iff, ← not_mem_legalOpcodes_iff]
  simp only [legalOpcodes, List.mem_cons, List.not_mem_nil, or_false]
  grind

/-- Settles O5: the first six words are those of their operations; a table word is first laid out as bytes. -/
theorem writtenOutWordsDecode : Obligations.WrittenOutWordsDecode :=
  ⟨decodeOfEncode .init, decodeOfEncode (.command 0xFF), decodeOfEncode (.data 0x48), decodeOfEncode .clear,
    decodeOfEncode (.setCursor 2 19), decodeOfEncode .sensorRead, by decide, by decide⟩

end Sys2Proof

/-! ### The signals and nibbles on the wire -/

namespace Sys2Proof.Machine

/-- The eight signals of an expander byte in the order of the wire map's positions, R/W being 0 (30_encoding.md R85,
R86). -/
def xsignals (n : Nibble) (rs en bl : Bool) : List Bool :=
  [rs, false, en, bl, n.getLsbD 0, n.getLsbD 1, n.getLsbD 2, n.getLsbD 3]

/-- A bit of an expander byte is set when a set signal stands there. -/
theorem getLsbD_xbyte (m : WireMap) (n : Nibble) (rs en bl : Bool) (p : Fin 8) :
    (xbyte m n rs en bl).getLsbD p = (m.positions.zip (xsignals n rs en bl)).any fun q => q.2 && decide (q.1 = p) := by
  simp only [xbyte, BitVec.getLsbD_or, getLsbD_signalAt]
  simp [WireMap.positions, xsignals, Bool.or_assoc]

/-- Where the positions are distinct, the only pair at a position decides whether a set one stands there. -/
theorem any_zip_eq_of_nodup {α : Type} [DecidableEq α] {ps : List α} {bs : List Bool}
    (h : ps.Nodup) (hlen : ps.length ≤ bs.length) {p : α} {b : Bool}
    (hmem : (p, b) ∈ ps.zip bs) :
    ((ps.zip bs).any fun q => q.2 && decide (q.1 = p)) = b := by
  have hzip : ((ps.zip bs).map Prod.fst).Nodup := by rwa [List.map_fst_zip hlen]
  cases b with
  | true => exact List.any_eq_true.mpr ⟨_, hmem, by simp⟩
  | false =>
    refine List.any_eq_false.mpr fun q hq hset => ?_
    simp only [Bool.and_eq_true, decide_eq_true_eq] at hset
    obtain ⟨hset, hp⟩ := hset
    rw [List.inj_on_of_nodup_map hzip hq hmem hp] at hset
    cases hset

/-- Settles O36: each signal is the one paired with its position. -/
theorem expanderByteSignals : Obligations.ExpanderByteSignals := by
  intro m n rs en bl h
  have hnodup : m.positions.Nodup := of_decide_eq_true h
  have signal {p : Fin 8} {b : Bool} (hmem : (p, b) ∈ m.positions.zip (xsignals n rs en bl)) :
      (xbyte m n rs en bl).getLsbD p = b :=
    (getLsbD_xbyte m n rs en bl p).trans (any_zip_eq_of_nodup hnodup le_rfl hmem)
  obtain ⟨hrw, hbl⟩ := getLsbD_xbyte_rw_bl hnodup n rs en bl
  refine ⟨signal ?_, hrw, signal ?_, hbl, signal ?_, signal ?_, signal ?_, signal ?_⟩ <;>
    simp [WireMap.positions, xsignals]

/-- Settles O38: bit by bit, with the signals at their positions in the default map. -/
theorem standardMapByte : Obligations.StandardMapByte := by
  intro n rs en bl
  ext i hi
  rw [← BitVec.getLsbD_eq_getElem, getLsbD_xbyte WireMap.standard n rs en bl ⟨i, hi⟩]
  interval_cases i <;> simp [WireMap.standard, WireMap.positions, xsignals]

/-- Settles O39: bit by bit; the low four bits are the low nibble's, the others the high one's. -/
theorem nibblesRebuildByte : Obligations.NibblesRebuildByte := by
  intro v
  refine ⟨?_, ?_, ?_⟩ <;> ext i hi <;> interval_cases i <;> simp [hiNibble, loNibble]

/-! ### CLEAR and INIT -/

theorem okEvents_clearCmds (c : Config) (bl : Bool) :
    (clearCmds c bl).map (Cmd.okEvent c) = xferEvents c bl 0x01 false ++ [.delay c.tClear] := by
  simp [clearCmds, cmdClear, okEvents_xferCmds, Cmd.okEvent]

/-- Settles O28: a transfer of the clear command in READY, with the wait behind it. -/
theorem clearSendsCommandAndHomesCursor : Obligations.ClearSendsCommandAndHomesCursor := by
  intro s rest ha hn hl hb
  refine ⟨_, exec_of_accepts .clear s ha, ?_⟩
  rw [List.append_assoc, ← okEvents_clearCmds]
  exact resume_lcdStart_of_ready s _ _ rest hn hl rfl hb

theorem initCmds_isPlain (c : Config) (bl : Bool) : (initCmds c bl).all Cmd.isPlain := by
  simp [initCmds, nibbleCmds, xferCmds, Cmd.isPlain]

theorem busWrites_initCmds (c : Config) (bl : Bool) : busWrites (initCmds c bl) = 24 := by
  simp [initCmds, nibbleCmds, xferCmds, busWrites]

theorem okEvents_nibbleCmds (c : Config) (bl : Bool) (n : Nibble) (rs : Bool) :
    (nibbleCmds c bl n rs).map (Cmd.okEvent c) = nibbleEvents c bl n rs := rfl

theorem okEvents_initCmds (c : Config) (bl : Bool) : (initCmds c bl).map (Cmd.okEvent c) = initEvents c bl := by
  simp only [initCmds, initEvents, List.map_append, okEvents_xferCmds, okEvents_nibbleCmds]
  rfl

/-- Settles O30: INIT accepted in UNINIT is a run of transfers with `initDone` behind it. -/
theorem initPerformsSequence : Obligations.InitPerformsSequence := by
  intro s rest ha hn hl hb
  have hstart : s.started .init =
      (s.begin s.res (initCmds s.cfg s.backlight ++ [.initDone])).withLcd .initializing := by
    simp [State.started, startInit, hl]
  have hans : (s.started .init).world.busAnswers =
      List.replicate (busWrites (initCmds s.cfg s.backlight)) .ok ++ rest := by
    rw [started_world, busWrites_initCmds, hb]
  obtain ⟨hres, hbusy, hlcd, htrace, hrest⟩ := resume_transfers (s.started .init) (initCmds s.cfg s.backlight)
    .initDone rest (started_noReset s .init hn) (by rw [hstart]; rfl) (initCmds_isPlain _ _) hans (.inr rfl)
  refine ⟨_, exec_of_accepts .init s ha, hlcd.trans (if_pos rfl), ?_, hbusy, ?_, hrest⟩
  · rw [hres, hstart]; rfl
  · rw [htrace, started_log, started_cfg, okEvents_initCmds]

/-- Settles O42: a fixed list under the default configuration. -/
theorem initDefaultTrace : Obligations.InitDefaultTrace :=
  ⟨by decide, by decide, rfl, by decide⟩

/-! ### A failing write of a transfer -/

/-- COMMAND, DATA, CLEAR and SET_CURSOR are transfers of a byte, after which only CLEAR has more to do
(40_nibble_transport.md R120, R122, 41_lcd_controller.md R143, R146). -/
theorem started_of_transferOf {s : State} {i : Instr} {v : Byte} {rs : Bool} {w : Results}
    (h : transferOf s i = some (v, rs, w)) :
    ∃ more, s.started i = s.lcdStart w (xferCmds s.cfg s.backlight v rs ++ more) := by
  cases i with
  | command v => cases h; exact ⟨[], by rw [List.append_nil]; rfl⟩
  | data v => cases h; exact ⟨[], by rw [List.append_nil]; rfl⟩
  | clear => cases h; exact ⟨[.delay s.cfg.tClear], rfl⟩
  | setCursor r c => cases h; exact ⟨[], by rw [List.append_nil]; rfl⟩
  | init => cases h
  | sensorRead => cases h

/-- A transfer up to one of its writes, which come in turn with the waits (40_nibble_transport.md R111, R113). -/
theorem xferCmds_at_write (c : Config) (bl : Bool) (v : Byte) (rs : Bool) {n : Nat} (h : n < 4) :
    ∃ post, xferCmds c bl v rs =
        (xferCmds c bl v rs).take (2 * n) ++ .busWrite ((xferBytes c bl v rs).getD n 0) :: post ∧
      busWrites ((xferCmds c bl v rs).take (2 * n)) = n := by
  refine ⟨(xferCmds c bl v rs).drop (2 * n + 1), ?_⟩
  interval_cases n <;> simp [xferCmds, nibbleCmds, xferBytes, busWrites, hiNibble, loNibble]

/-- Settles O24: the commands of such an operation run up to the failing write. -/
theorem transferStopsAtFailedWrite : Obligations.TransferStopsAtFailedWrite := by
  intro s i v rs w n rest ha hn hl htransfer hlt hb
  obtain ⟨more, hstart⟩ := started_of_transferOf htransfer
  obtain ⟨post, hsplit, hwrites⟩ := xferCmds_at_write s.cfg s.backlight v rs hlt
  have hplain : ((xferCmds s.cfg s.backlight v rs).take (2 * n)).all Cmd.isPlain :=
    List.all_eq_true.mpr fun c hc => List.all_eq_true.mp (xferCmds_isPlain _ _ _ _) c (List.mem_of_mem_take hc)
  have hbegin : s.started i = s.begin w ((xferCmds s.cfg s.backlight v rs).take (2 * n) ++
      .busWrite ((xferBytes s.cfg s.backlight v rs).getD n 0) :: (post ++ more ++ [.endWith .none])) := by
    rw [hstart, State.lcdStart, if_pos hl, ← List.cons_append, ← List.cons_append, ← List.append_assoc,
      ← List.append_assoc, ← hsplit]
  obtain ⟨hres, hbusy, hlcd, htrace, hans⟩ := resume_failed_transfer (s.started i) _ _ _ rest (started_noReset s i hn)
    (congrArg State.seq hbegin) hplain (by rw [hbegin, hwrites]; exact hb)
  refine ⟨_, exec_of_accepts i s ha, ?_, hbusy, ?_, ?_, hans⟩
  · rw [hres, hbegin]; rfl
  · rw [hlcd, hbegin]; exact hl
  · rw [htrace, started_log, started_cfg, List.map_take, okEvents_xferCmds]

end Sys2Proof.Machine

/-! ### WRITE_TEXT -/

namespace Sys2Proof.Machine

theorem advance_backlight (s : State) : s.advance.backlight = s.backlight := by
  unfold State.advance
  split
  · rfl
  · exact (perform_backlight_ovr _ (s.withSeq _)).1

/-- An operation without a reset leaves the backlight (10_state.md R26). -/
theorem resume_backlight {s : State} (hn : s.NoReset) : s.resume.backlight = s.backlight :=
  resume_induct_advance (fun u => u.backlight = s.backlight) (fun u _ h => (advance_backlight u).trans h) hn rfl

/-- The code the host reads is that of the last outcome (10_state.md R42). -/
theorem lastErrField_eq (s : State) : s.lastErrField = s.res.lastErr.code := by
  obtain ⟨-, -, herr, -⟩ := statusWord_fields s
  exact herr

/-- The state `t` after DATA `c` in `s`, all of whose writes succeeded, with the answers `rest` left: ready for the next
operation (40_nibble_transport.md R122). -/
structure State.SentData (s : State) (c : Byte) (rest : List BusAnswer) (t : State) : Prop where
  accepts : t.Accepts
  noReset : t.NoReset
  lcd : t.lcd = .ready
  cfg : t.cfg = s.cfg
  backlight : t.backlight = s.backlight
  res : t.res = { s.res with cursorCol := s.res.cursorCol + 1, lastErr := .none }
  trace : t.log.trace = s.log.trace ++ xferEvents s.cfg s.backlight c true
  busAnswers : t.world.busAnswers = rest

theorem exec_data_sentData {s : State} (ha : s.Accepts) (hn : s.NoReset) (hl : s.lcd = .ready) (c : Byte)
    {rest : List BusAnswer} (hb : s.world.busAnswers = List.replicate 4 .ok ++ rest) :
    ∃ t, exec (.data c) s = .next t ∧ s.SentData c rest t := by
  have hn' : (s.started (.data c)).NoReset := started_noReset s _ hn
  have hcfg : (s.started (.data c)).resume.cfg = s.cfg := (run_cfg _ _).trans (started_cfg s _)
  have hstart : s.started (.data c) =
      s.lcdStart { s.res with cursorCol := s.res.cursorCol + 1 } (xferCmds s.cfg s.backlight c true) := rfl
  obtain ⟨hres, hbusy, hlcd, htrace, hans⟩ :=
    resume_lcdStart_of_ready s _ _ rest hn hl (xferCmds_isPlain s.cfg s.backlight c true) hb
  rw [← hstart] at hres hbusy hlcd htrace hans
  refine ⟨_, exec_of_accepts _ s ha, ⟨by rw [hcfg]; exact ha.legal, hbusy⟩, run_noReset _ _ hn', hlcd, hcfg, ?_, hres,
    htrace, hans⟩
  rw [resume_backlight hn', started_eq]

/-- WRITE_TEXT goes on with the next character when DATA ended with code NONE (41_lcd_controller.md R150). -/
theorem writeText_cons_of_none {s t : State} {c : Byte} (h : exec (.data c) s = .next t) (hb : t.busy = false)
    (herr : t.res.lastErr = .none) (cs : List Byte) : writeText (c :: cs) s = writeText cs t := by
  have hidle : t.awaitIdle = t := by simp [State.awaitIdle, hb]
  have hfield : t.lastErrField = 0 := by rw [lastErrField_eq, herr]; rfl
  simp [writeText, h, hidle, hfield]

/-- Settles O56: by induction over the text, each character a DATA that leaves the engine ready for the next. -/
theorem writeTextSendsEveryCharacter : Obligations.WriteTextSendsEveryCharacter := by
  intro cs
  induction cs with
  | nil => exact fun s rest ha _ _ hb => ⟨s, rfl, ha.idle, by simp, by simp, hb⟩
  | cons c cs ih =>
    intro s rest ha hn hl hb
    have hb' : s.world.busAnswers = List.replicate 4 .ok ++ (List.replicate (4 * cs.length) .ok ++ rest) := by
      rw [hb, ← List.append_assoc, ← List.replicate_add, List.length_cons, Nat.mul_succ, Nat.add_comm]
    obtain ⟨t, hexec, hsent⟩ := exec_data_sentData ha hn hl c hb'
    have herr : t.res.lastErr = .none := by rw [hsent.res]
    obtain ⟨u, hwrite, hbusy, htrace, hres, hans⟩ := ih t rest hsent.accepts hsent.noReset hsent.lcd hsent.busAnswers
    refine ⟨u, (writeText_cons_of_none hexec hsent.accepts.idle herr cs).trans hwrite, hbusy, ?_, ?_, hans⟩
    · rw [htrace, hsent.trace, hsent.cfg, hsent.backlight, List.flatMap_cons, List.append_assoc]
    · rw [hres, hsent.res, List.length_cons, Nat.add_comm cs.length, BitVec.ofNat_add, BitVec.add_assoc]
      simp

end Sys2Proof.Machine

/-! ### COMMAND, DATA and INIT on the wire -/

namespace Sys2Proof.Machine

/-- Settles O26: a transfer of one byte in READY, whose working copy is the results as they stand. -/
theorem commandSendsByte : Obligations.CommandSendsByte := by
  intro s v rest ha hn hl hb
  refine ⟨_, exec_of_accepts (.command v) s ha, ?_⟩
  rw [← okEvents_xferCmds]
  exact resume_lcdStart_of_ready s _ _ rest hn hl (xferCmds_isPlain _ _ _ _) hb

/-- Settles O27: what DATA leaves when its writes succeed, the column being a byte. -/
theorem dataSendsCharacter : Obligations.DataSendsCharacter := by
  intro s v rest ha hn hl hb
  obtain ⟨t, hexec, hsent⟩ := exec_data_sentData ha hn hl v hb
  have hcol : s.res.cursorCol + 1 = BitVec.ofNat 8 ((s.res.cursorCol.toNat + 1) % 256) :=
    BitVec.eq_of_toNat_eq (by simp)
  refine ⟨t, hexec, ?_, hsent.accepts.idle, hsent.lcd, hsent.trace, hsent.busAnswers⟩
  rw [hsent.res, hcol]

/-- The other seven signals of an expander byte do not depend on EN (30_encoding.md R85). -/
theorem getLsbD_xbyte_of_ne_en {m : WireMap} {p : Fin 8} (h : p ≠ m.en) (n : Nibble) (rs en en' bl : Bool) :
    (xbyte m n rs en bl).getLsbD p = (xbyte m n rs en' bl).getLsbD p := by
  rw [getLsbD_xbyte, getLsbD_xbyte]
  simp [WireMap.positions, xsignals, Ne.symm h]

/-- Settles O37: at EN's position the bytes show EN itself, and elsewhere a signal that does not depend on it. -/
theorem nibbleBytesDifferInEnable : Obligations.NibbleBytesDifferInEnable := by
  intro m n rs bl p h
  have enable (en : Bool) : (xbyte m n rs en bl).getLsbD m.en = en := by
    obtain ⟨-, -, hen, -⟩ := expanderByteSignals m n rs en bl h
    exact hen
  constructor
  · intro hne
    by_contra hp
    exact hne (getLsbD_xbyte_of_ne_en hp n rs true false bl)
  · rintro rfl
    rw [enable, enable]
    decide

/-- Commands up to any one of their bus writes. -/
theorem exists_append_at_write {cs : List Cmd} {n : Nat} (h : n < busWrites cs) :
    ∃ pre b post, cs = pre ++ .busWrite b :: post ∧ busWrites pre = n := by
  induction cs generalizing n with
  | nil => cases h
  | cons c cs ih =>
    by_cases hc : ∃ b, c = .busWrite b
    · obtain ⟨b, rfl⟩ := hc
      cases n with
      | zero => exact ⟨[], b, cs, rfl, rfl⟩
      | succ n =>
        obtain ⟨pre, b', post, hcs, hn⟩ := ih (n := n) (by simpa [busWrites] using h)
        exact ⟨.busWrite b :: pre, b', post, by rw [hcs]; rfl, by simpa [busWrites] using hn⟩
    · have skip (xs : List Cmd) : busWrites (c :: xs) = busWrites xs := by
        cases c with
        | busWrite b => exact absurd ⟨b, rfl⟩ hc
        | _ => rfl
      obtain ⟨pre, b, post, hcs, hn⟩ := ih (skip cs ▸ h)
      exact ⟨c :: pre, b, post, by rw [hcs]; rfl, (skip pre).trans hn⟩

/-- The events of some commands hold one byte for each bus write among them. -/
theorem length_bytes_okEvents (c : Config) (cs : List Cmd) :
    ((cs.map (Cmd.okEvent c)).filterMap Event.byte).length = busWrites cs := by
  induction cs with
  | nil => rfl
  | cons x xs ih =>
    cases x with
    | busWrite b => simpa [busWrites, Cmd.okEvent, Event.byte] using ih
    | _ => exact ih

/-- INIT accepted in UNINIT (41_lcd_controller.md R141). -/
theorem started_init_of_uninit {s : State} (h : s.lcd = .uninit) :
    s.started .init = (s.begin s.res (initCmds s.cfg s.backlight ++ [.initDone])).withLcd .initializing :=
  if_pos h

/-- Settles O25: INIT runs up to the failing write, the last event, behind whose byte stand those of the writes before
it. -/
theorem initStopsAtFailedWrite : Obligations.InitStopsAtFailedWrite := by
  intro s n rest ha hn hl hlt hb
  have hstart := started_init_of_uninit hl
  obtain ⟨pre, b, post, hsplit, hwrites⟩ :=
    exists_append_at_write (hlt.trans_eq (busWrites_initCmds s.cfg s.backlight).symm)
  have hplain : pre.all Cmd.isPlain := by
    have hall := initCmds_isPlain s.cfg s.backlight
    rw [hsplit, List.all_append, Bool.and_eq_true] at hall
    obtain ⟨hpre, -⟩ := hall
    exact hpre
  have hseq : (s.started .init).seq = pre ++ .busWrite b :: (post ++ [.initDone]) := by
    rw [hstart, State.withLcd_seq, State.begin_seq, hsplit, List.append_assoc, List.cons_append]
  obtain ⟨hres, hbusy, hlcd, htrace, hans⟩ := resume_failed_transfer (s.started .init) pre _ b rest
    (started_noReset s .init hn) hseq hplain (by rw [started_world, hwrites, hb])
  rw [started_log, started_cfg] at htrace
  have hbytes : (initEvents s.cfg s.backlight).filterMap Event.byte =
      (pre.map (Cmd.okEvent s.cfg)).filterMap Event.byte ++ b :: (post.map (Cmd.okEvent s.cfg)).filterMap Event.byte := by
    rw [← okEvents_initCmds, hsplit, List.map_append, List.filterMap_append]
    rfl
  have hlen : ((pre.map (Cmd.okEvent s.cfg)).filterMap Event.byte).length = n :=
    (length_bytes_okEvents s.cfg pre).trans hwrites
  refine ⟨_, exec_of_accepts .init s ha, ?_, hbusy, ?_, ?_, ?_, hans⟩
  · rw [hlcd, hstart]; rfl
  · rw [hres, hstart]; rfl
  · rw [htrace, hbytes, ← hlen]
    simp [List.take_append, Event.byte]
  · rw [htrace, hbytes, ← hlen]
    simp

end Sys2Proof.Machine

/-! ### What a transfer leaves unchanged -/

namespace Sys2Proof.Machine

/-- A quiet host does nothing before a command. -/
theorem gap_of_quiet {s : State} (h : s.Quiet) : s.gap = s := by
  rcases h with hnil | hhead
  · exact gap_of_script_nil s hnil
  · obtain ⟨ts, hscript⟩ := List.head?_eq_some_iff.mp hhead
    simp only [State.gap, hscript, State.hostTurns, State.withScript]
    rw [← hscript]

/-- No command answers a host read (20_memory.md R63). -/
theorem perform_reads (c : Cmd) (s : State) : (s.perform c).log.reads = s.log.reads := by
  cases c with
  | busWrite b =>
    simp only [State.perform, State.performWrite]
    split <;> simp
  | poll i n => simp [State.perform, performPoll_log]
  | ackSample => simp [State.perform, State.performAck]
  | _ => rfl

theorem advance_reads (s : State) : s.advance.log.reads = s.log.reads := by
  unfold State.advance
  split
  · rfl
  · exact perform_reads _ (s.withSeq _)

/-- While the host is quiet, an operation leaves `ovr` and the answered reads (10_state.md R34, 20_memory.md R63). -/
theorem resume_ovr_reads_of_quiet {s : State} (h : s.Quiet) :
    s.resume.ovr = s.ovr ∧ s.resume.log.reads = s.log.reads := by
  refine (run_induct (fun u => u.Quiet ∧ u.ovr = s.ovr ∧ u.log.reads = s.log.reads) (fun u _ hu => ?_) _ s
    ⟨h, rfl, rfl⟩).2
  obtain ⟨hquiet, hovr, hreads⟩ := hu
  rw [State.tick, gap_of_quiet hquiet]
  refine ⟨?_, (advance_ovr u).trans hovr, (advance_reads u).trans hreads⟩
  rw [State.Quiet, advance_script]
  exact hquiet

/-- The commands of the operations that write to the bus: bus writes, waits and their ends. -/
def Cmd.isTransfer : Cmd → Bool
  | .busWrite _ => true
  | .delay _ => true
  | .endWith _ => true
  | .initDone => true
  | _ => false

/-- The state `t` comes after `s` by commands of transfers: the decoder, the pin and its inputs are as they were, the
results are those of `s` or its working copy but for the code, and the events between them are bus writes and waits. -/
structure State.TransfersTo (s t : State) : Prop where
  dec : t.dec = s.dec
  measIndex : t.measIndex = s.measIndex
  pinDir : t.pinDir = s.pinDir
  pinOut : t.pinOut = s.pinOut
  pinLevels : t.world.pinLevels = s.world.pinLevels
  res : ∃ e, t.res = { s.res with lastErr := e } ∨ t.res = { s.work with lastErr := e }
  work : ∃ e, t.work = { s.work with lastErr := e }
  pending : t.seq ⊆ s.seq
  traced : ∃ es, t.log.trace = s.log.trace ++ es ∧ ∀ e ∈ es, e.isWrite = true ∨ ∃ d, e = .delay d

theorem State.TransfersTo.refl (s : State) : s.TransfersTo s :=
  ⟨rfl, rfl, rfl, rfl, rfl, ⟨_, .inl rfl⟩, ⟨_, rfl⟩, List.Subset.refl _, [], by simp, by simp⟩

theorem State.TransfersTo.trans {s t u : State} (h : s.TransfersTo t) (h' : t.TransfersTo u) : s.TransfersTo u where
  dec := h'.dec.trans h.dec
  measIndex := h'.measIndex.trans h.measIndex
  pinDir := h'.pinDir.trans h.pinDir
  pinOut := h'.pinOut.trans h.pinOut
  pinLevels := h'.pinLevels.trans h.pinLevels
  res := by
    obtain ⟨e', hres' | hres'⟩ := h'.res
    · obtain ⟨e, hres | hres⟩ := h.res
      · exact ⟨e', .inl (by rw [hres', hres])⟩
      · exact ⟨e', .inr (by rw [hres', hres])⟩
    · obtain ⟨e, hwork⟩ := h.work
      exact ⟨e', .inr (by rw [hres', hwork])⟩
  work := by
    obtain ⟨e, hwork⟩ := h.work
    obtain ⟨e', hwork'⟩ := h'.work
    exact ⟨e', by rw [hwork', hwork]⟩
  pending := fun _ hc => h.pending (h'.pending hc)
  traced := by
    obtain ⟨es, htrace, hes⟩ := h.traced
    obtain ⟨es', htrace', hes'⟩ := h'.traced
    exact ⟨es ++ es', by rw [htrace', htrace, List.append_assoc], List.forall_mem_append.mpr ⟨hes, hes'⟩⟩

theorem perform_transfersTo {c : Cmd} (hc : c.isTransfer = true) (s : State) : s.TransfersTo (s.perform c) := by
  cases c with
  | busWrite b =>
    simp only [State.perform, State.performWrite]
    split
    · exact ⟨by simp, by simp, by simp, by simp, by simp, ⟨s.res.lastErr, .inl (by simp)⟩,
        ⟨s.work.lastErr, by simp⟩, by simp, [.busWrite s.cfg.i2cAddr b .ok], by simp, by simp [Event.isWrite]⟩
    · exact ⟨by simp, by simp, by simp, by simp, by simp, ⟨.busTransferFailure, .inr (by simp)⟩,
        ⟨.busTransferFailure, by simp⟩, by simp, [.busWrite s.cfg.i2cAddr b .err], by simp, by simp [Event.isWrite]⟩
  | delay t =>
    exact ⟨rfl, rfl, rfl, rfl, rfl, ⟨_, .inl rfl⟩, ⟨_, rfl⟩, List.Subset.refl _, [.delay t], rfl, by simp⟩
  | endWith e =>
    exact ⟨rfl, rfl, rfl, rfl, rfl, ⟨e, .inr rfl⟩, ⟨e, rfl⟩, List.nil_subset _, [], by simp [State.perform], by simp⟩
  | initDone =>
    exact ⟨rfl, rfl, rfl, rfl, rfl, ⟨.none, .inr rfl⟩, ⟨.none, rfl⟩, List.nil_subset _, [], by simp [State.perform],
      by simp⟩
  | _ => cases hc

/-- An operation of transfers that no reset disturbs. -/
theorem resume_transfersTo {s : State} (hn : s.NoReset) (h : s.seq.all Cmd.isTransfer) : s.TransfersTo s.resume := by
  have hrun : s.hostless.TransfersTo s.resume.hostless := by
    refine resume_induct_advance s.hostless.TransfersTo (fun u hseq hu => ?_) hn (.refl _)
    obtain ⟨c, cs, hcs⟩ := List.exists_cons_of_ne_nil hseq
    have hc : c.isTransfer = true := List.all_eq_true.mp h c (hu.pending (by simp [hcs]))
    have htake : u.TransfersTo (u.withSeq cs) := { State.TransfersTo.refl u with pending := by simp [hcs] }
    rw [advance_cons hcs]
    exact hu.trans (htake.trans (perform_transfersTo hc _))
  obtain ⟨hdec, hindex, hdir, hout, hlevels, hres, hwork, hseq, htraced⟩ := hrun
  exact ⟨hdec, hindex, hdir, hout, hlevels, hres, hwork, hseq, htraced⟩

theorem isTransfer_of_isPlain {cs : List Cmd} (h : cs.all Cmd.isPlain) : cs.all Cmd.isTransfer := by
  refine List.all_eq_true.mpr fun c hc => ?_
  have hplain : c.isPlain = true := List.all_eq_true.mp h c hc
  cases c with
  | busWrite b => rfl
  | delay t => rfl
  | _ => cases hplain

/-- Every operation but SENSOR_READ performs transfers. -/
theorem started_isTransfer {i : Instr} (hi : i ≠ .sensorRead) (s : State) :
    (s.started i).seq.all Cmd.isTransfer := by
  have lcd (w : Results) {cs : List Cmd} (h : cs.all Cmd.isPlain) : (s.lcdStart w cs).seq.all Cmd.isTransfer := by
    unfold State.lcdStart
    split
    · rw [State.begin_seq, List.all_append, isTransfer_of_isPlain h]; rfl
    · rfl
  cases i with
  | init =>
    simp only [State.started, startInit]
    split
    · rw [State.withLcd_seq, State.begin_seq, List.all_append, isTransfer_of_isPlain (initCmds_isPlain _ _)]; rfl
    · rfl
  | command v => exact lcd _ rfl
  | data v => exact lcd _ rfl
  | clear => exact lcd _ rfl
  | setCursor r c => exact lcd _ rfl
  | sensorRead => exact absurd rfl hi

/-- What the operation `i` may make of the results: another cursor and code, COMMAND no other cursor and DATA no other
row (40_nibble_transport.md R120, R122). -/
structure MovesCursor (i : Instr) (r r' : Results) : Prop where
  others : r' = { r with cursorRow := r'.cursorRow, cursorCol := r'.cursorCol, lastErr := r'.lastErr }
  command : ∀ v, i = .command v → r'.cursorRow = r.cursorRow ∧ r'.cursorCol = r.cursorCol
  data : ∀ v, i = .data v → r'.cursorRow = r.cursorRow

theorem MovesCursor.refl (i : Instr) (r : Results) : MovesCursor i r r :=
  ⟨rfl, fun _ _ => ⟨rfl, rfl⟩, fun _ _ => rfl⟩

theorem MovesCursor.withErr {i : Instr} {r r' : Results} (h : MovesCursor i r r') (e : ErrCode) :
    MovesCursor i r { r' with lastErr := e } where
  others := by rw [h.others]
  command := h.command
  data := h.data

/-- The logical update of a transfer. -/
theorem movesCursor_of_transferOf {s : State} {i : Instr} {v : Byte} {rs : Bool} {w : Results}
    (h : transferOf s i = some (v, rs, w)) : MovesCursor i s.res w := by
  cases i with
  | command v => cases h; exact .refl _ _
  | data v => cases h; exact ⟨rfl, by simp, fun _ _ => rfl⟩
  | clear => cases h; exact ⟨rfl, by simp, by simp⟩
  | setCursor r c => cases h; exact ⟨rfl, by simp, by simp⟩
  | init => cases h
  | sensorRead => cases h

/-- A transfer starts with its logical update in the working copy, or is turned away (40_nibble_transport.md R115,
60_exceptions.md R234). -/
theorem started_work_of_transferOf {s : State} {i : Instr} {v : Byte} {rs : Bool} {w : Results}
    (h : transferOf s i = some (v, rs, w)) : (s.started i).work = w ∨ (s.started i).work = s.res := by
  obtain ⟨more, hstart⟩ := started_of_transferOf h
  rw [hstart, State.lcdStart]
  split
  · exact .inl rfl
  · exact .inr rfl

theorem started_backlight (s : State) (i : Instr) : (s.started i).backlight = s.backlight := by rw [started_eq]

theorem started_dec (s : State) (i : Instr) : (s.started i).dec = s.dec := by rw [started_eq]

theorem started_measIndex (s : State) (i : Instr) : (s.started i).measIndex = s.measIndex := by rw [started_eq]

theorem started_pinDir (s : State) (i : Instr) : (s.started i).pinDir = s.pinDir := by rw [started_eq]

theorem started_pinOut (s : State) (i : Instr) : (s.started i).pinOut = s.pinOut := by rw [started_eq]

theorem started_res (s : State) (i : Instr) : (s.started i).res = s.res := by rw [started_eq]

/-- What an operation of transfers leaves as it was from `s` to `t`, and the events it adds. -/
structure State.TransferFramed (s t : State) : Prop where
  cfg : t.cfg = s.cfg
  backlight : t.backlight = s.backlight
  dec : t.dec = s.dec
  measIndex : t.measIndex = s.measIndex
  pinDir : t.pinDir = s.pinDir
  pinOut : t.pinOut = s.pinOut
  pinLevels : t.world.pinLevels = s.world.pinLevels
  quiet : s.busy = false → s.Quiet → t.ovr = s.ovr ∧ t.log.reads = s.log.reads
  events : ∀ e ∈ s.newEvents t, e.isWrite = true ∨ ∃ d, e = .delay d

/-- An operation of transfers that answers a next state was dropped, with `ovr` set, or came to its end; but for the code,
the results are those before it or the working copy it started with. -/
theorem exec_transferFramed {s t : State} {i : Instr} (hi : i ≠ .sensorRead) (hn : s.NoReset) (h : exec i s = .next t) :
    s.TransferFramed t ∧
      ∃ e, t.res = { s.res with lastErr := e } ∨ t.res = { (s.started i).work with lastErr := e } := by
  rw [exec_eq_issue] at h
  rcases issue_next_cases h with ⟨hbusy, rfl⟩ | ⟨-, rfl⟩
  · refine ⟨⟨rfl, rfl, rfl, rfl, rfl, rfl, rfl, fun hidle => ?_, ?_⟩, s.res.lastErr, .inl rfl⟩
    · rw [hbusy] at hidle; cases hidle
    · simp [State.newEvents]
  · have hn' : (s.started i).NoReset := started_noReset s i hn
    obtain ⟨hdec, hindex, hdir, hout, hlevels, hres, -, -, es, htrace, hes⟩ :=
      resume_transfersTo hn' (started_isTransfer hi s)
    rw [started_dec] at hdec
    rw [started_measIndex] at hindex
    rw [started_pinDir] at hdir
    rw [started_pinOut] at hout
    rw [started_world] at hlevels
    rw [started_res] at hres
    rw [started_log] at htrace
    have hcfg : (s.started i).resume.cfg = s.cfg := (run_cfg _ _).trans (started_cfg s i)
    have hbl : (s.started i).resume.backlight = s.backlight := (resume_backlight hn').trans (started_backlight s i)
    refine ⟨⟨hcfg, hbl, hdec, hindex, hdir, hout, hlevels, fun _ hquiet => ?_, ?_⟩, hres⟩
    · have hquiet' : (s.started i).Quiet := by rwa [State.Quiet, started_world]
      obtain ⟨hovr, hreads⟩ := resume_ovr_reads_of_quiet hquiet'
      exact ⟨hovr.trans (started_ovr s i), hreads.trans (by rw [started_log])⟩
    · rwa [State.newEvents, htrace, List.drop_left]

/-- Settles O32: such an operation is one of transfers, from a working copy with another cursor at most. -/
theorem transferFrame : Obligations.TransferFrame := by
  intro s t i htransfer hn h
  have hinit : i ≠ .init := by rintro rfl; exact htransfer rfl
  have hread : i ≠ .sensorRead := by rintro rfl; exact htransfer rfl
  obtain ⟨⟨v, rs, w⟩, hw⟩ := Option.ne_none_iff_exists'.mp htransfer
  obtain ⟨lcdKept, -⟩ := onlyInitMovesLcdState
  have hlcd : t.lcd = s.lcd := lcdKept s t i hinit hn h
  obtain ⟨⟨hcfg, hbl, hdec, hindex, hdir, hout, hlevels, hquiet, hevents⟩, e, hres⟩ := exec_transferFramed hread hn h
  have hwork : MovesCursor i s.res (s.started i).work := by
    rcases started_work_of_transferOf hw with hwork | hwork <;> rw [hwork]
    · exact movesCursor_of_transferOf hw
    · exact .refl i s.res
  have hmoves : MovesCursor i s.res t.res := by
    rcases hres with hres | hres <;> rw [hres]
    · exact (MovesCursor.refl i s.res).withErr e
    · exact hwork.withErr e
  exact ⟨hcfg, hlcd, hbl, hdec, hindex, hdir, hout, hlevels, hmoves.others, hmoves.command, hmoves.data, hquiet, hevents⟩

end Sys2Proof.Machine

/-! ### What INIT leaves unchanged -/

namespace Sys2Proof.Machine

/-- INIT starts from the results as they stand, also when it is turned away (41_lcd_controller.md R141,
60_exceptions.md R234). -/
theorem started_init_work (s : State) : (s.started .init).work = s.res := by
  simp only [State.started, startInit]
  split <;> rfl

/-- Settles O33: INIT is an operation of transfers, from a working copy with no update. -/
theorem initFrame : Obligations.InitFrame := by
  intro s t hn h
  obtain ⟨⟨hcfg, hbl, hdec, hindex, hdir, hout, hlevels, hquiet, hevents⟩, e, hres⟩ :=
    exec_transferFramed (by decide) hn h
  rw [started_init_work, or_self] at hres
  exact ⟨hcfg, hbl, hdec, hindex, hdir, hout, hlevels, by rw [hres], hquiet, hevents⟩

/-! ### The effective row -/

/-- Two bits hold the effective row, of which there are at most four (41_lcd_controller.md R144). -/
theorem rowEff_toNat {c : Config} (h : c.wf = true) (r : Byte) : (rowEff c r).toNat = min r.toNat (c.numRows - 1) := by
  obtain ⟨-, -, -, -, hrows⟩ := counts_of_wf h
  rw [rowEff, BitVec.toNat_ofNat]
  omega

/-- A row at or past the last supported one has its effective row (R144). -/
theorem rowEff_of_last_le {c : Config} (h : c.wf = true) {r : Byte} (hr : c.numRows - 1 ≤ r.toNat) :
    rowEff c r = rowEff c (BitVec.ofNat 8 (c.numRows - 1)) := by
  obtain ⟨-, -, -, -, hrows⟩ := counts_of_wf h
  apply BitVec.eq_of_toNat_eq
  rw [rowEff_toNat h, rowEff_toNat h, BitVec.toNat_ofNat]
  omega

/-- Settles O40: SET_CURSOR takes the requested row by its effective row alone. -/
theorem rowsClamp : Obligations.RowsClamp := by
  refine ⟨fun c r h => rowEff_toNat h r, fun s r col h hr => ?_⟩
  have hstart : s.started (.setCursor r col) = s.started (.setCursor (BitVec.ofNat 8 (s.cfg.numRows - 1)) col) := by
    simp only [State.started, startSetCursor, rowEff_of_last_le h hr]
  rw [exec_eq_issue, exec_eq_issue, hstart]

/-! ### A running operation and the committed results -/

/-- The state with other committed results. -/
def State.withRes (s : State) (r : Results) : State := { s with res := r }

@[simp] theorem State.withRes_cfg (s : State) (r : Results) : (s.withRes r).cfg = s.cfg := rfl
@[simp] theorem State.withRes_lcd (s : State) (r : Results) : (s.withRes r).lcd = s.lcd := rfl
@[simp] theorem State.withRes_nextAnswer (s : State) (r : Results) : (s.withRes r).nextAnswer = s.nextAnswer := rfl
@[simp] theorem State.withRes_nextLevel (s : State) (r : Results) : (s.withRes r).nextLevel = s.nextLevel := rfl

theorem popAnswer_withRes (s : State) (r : Results) : (s.withRes r).popAnswer = s.popAnswer.withRes r := by
  unfold State.popAnswer
  simp only [State.withRes]
  split <;> rfl

theorem popLevel_withRes (s : State) (r : Results) : (s.withRes r).popLevel = s.popLevel.withRes r := by
  unfold State.popLevel
  simp only [State.withRes]
  split <;> rfl

/-- A command of a running operation takes no notice of the committed results (10_state.md R48): it overwrites them when
it ends the operation, and otherwise leaves them. -/
theorem perform_withRes (c : Cmd) {s : State} (hb : s.busy = true) (r : Results) :
    (s.withRes r).perform c = s.perform c ∨
      (s.perform c).busy = true ∧ (s.withRes r).perform c = (s.perform c).withRes r := by
  cases c with
  | busWrite b =>
    simp only [State.perform, State.performWrite, State.withRes_nextAnswer, popAnswer_withRes]
    split
    · exact .inr ⟨by simpa using hb, rfl⟩
    · exact .inl rfl
  | ackSample =>
    simp only [State.perform, State.performAck, popLevel_withRes]
    exact .inr ⟨by simpa using hb, rfl⟩
  | poll i n =>
    simp only [State.perform, State.performPoll, State.withRes_nextLevel, State.withRes_cfg, popLevel_withRes]
    split
    · exact .inr ⟨by simpa using hb, rfl⟩
    · split <;> exact .inr ⟨by simpa using hb, rfl⟩
  | endWith e => exact .inl rfl
  | initDone => exact .inl rfl
  | readDone => exact .inl rfl
  | _ => exact .inr ⟨hb, rfl⟩

/-- Without the host, a run takes no notice of the committed results until it overwrites them. -/
theorem run_withRes (n : Nat) :
    ∀ (s : State) (r : Results), s.world.script = [] → s.busy = true →
      (s.withRes r).run n = s.run n ∨ (s.run n).busy = true ∧ (s.withRes r).run n = (s.run n).withRes r := by
  induction n with
  | zero => exact fun s r _ hb => .inr ⟨hb, rfl⟩
  | succ n ih =>
    intro s r hscript hb
    cases hseq : s.seq with
    | nil =>
      rw [run_of_seq_nil _ s hseq, run_of_seq_nil _ (s.withRes r) hseq]
      exact .inr ⟨hb, rfl⟩
    | cons c cs =>
      rw [run_succ_of_script_nil n hscript hseq, run_succ_of_script_nil n (s := s.withRes r) hscript hseq,
        show (s.withRes r).withSeq cs = (s.withSeq cs).withRes r from rfl]
      rcases perform_withRes c (s := s.withSeq cs) hb r with hsame | ⟨hbusy, hkeep⟩
      · exact .inl (by rw [hsame])
      · rw [hkeep]
        exact ih _ r (by rw [perform_script]; exact hscript) hbusy

/-- An accepted operation, brought to its end, has overwritten the committed results, so that it comes out the same from
any others. -/
theorem resume_withRes {s : State} (hn : s.NoReset) (hb : s.busy = true) (hc : s.Closed) (r : Results) :
    (s.withRes r).resume.hostless = s.resume.hostless := by
  have hidle : s.resume.hostless.busy = false := resume_idle s hc
  rw [resume_hostless s hn] at hidle ⊢
  rw [resume_hostless (s.withRes r) hn]
  rcases run_withRes (seqCost s.cfg s.seq) s.hostless r rfl hb with hsame | ⟨hbusy, -⟩
  · exact hsame
  · exact absurd (hidle.symm.trans hbusy) (by decide)

/-- An LCD operation accepted in READY (60_exceptions.md R234). -/
theorem lcdStart_of_ready {s : State} (h : s.lcd = .ready) (w : Results) (cs : List Cmd) :
    s.lcdStart w cs = s.begin w (cs ++ [.endWith .none]) :=
  if_pos h

/-- SET_CURSOR accepted in READY writes both parts of the cursor, so that its working copy does not hold the one before
(41_lcd_controller.md R147). -/
theorem started_setCursor_withCursor {s : State} (hl : s.lcd = .ready) (r c : Byte) (row : BitVec 2) (col : Byte) :
    (s.withRes { s.res with cursorRow := row, cursorCol := col }).started (.setCursor r c) =
      (s.started (.setCursor r c)).withRes { s.res with cursorRow := row, cursorCol := col } := by
  simp only [State.started, startSetCursor]
  rw [lcdStart_of_ready hl, lcdStart_of_ready ((State.withRes_lcd s _).trans hl)]
  rfl

/-- Settles O41: the two runs start from one working copy, and the committed results they differ in are overwritten. -/
theorem setCursorForgetsCursor : Obligations.SetCursorForgetsCursor := by
  intro s t t' r c row col ha hn hl h h'
  have ha' : (s.withRes { s.res with cursorRow := row, cursorCol := col }).Accepts := ⟨ha.legal, ha.idle⟩
  replace h' := (exec_of_accepts _ _ ha').symm.trans h'
  rw [started_setCursor_withCursor hl] at h'
  rw [exec_of_accepts _ s ha] at h
  cases h
  cases h'
  have hend := resume_withRes (started_noReset s (.setCursor r c) hn) (started_busy s _) (started_closed s _)
    { s.res with cursorRow := row, cursorCol := col }
  have hres := res_of_hostless _ _ hend
  exact ⟨trace_of_hostless _ _ hend, congrArg Results.cursorRow hres, congrArg Results.cursorCol hres⟩

/-! ### A failing character of WRITE_TEXT -/

/-- WRITE_TEXT stops when DATA ended with BUS_TRANSFER_FAILURE, whose code is not 0 (41_lcd_controller.md R150). -/
theorem writeText_cons_of_failure {s t : State} {c : Byte} (h : exec (.data c) s = .next t) (hb : t.busy = false)
    (herr : t.res.lastErr = .busTransferFailure) (cs : List Byte) : writeText (c :: cs) s = .next t := by
  have hidle : t.awaitIdle = t := by simp [State.awaitIdle, hb]
  have hfield : t.lastErrField ≠ 0 := by rw [lastErrField_eq, herr]; decide
  simp only [writeText, h, hidle, if_neg hfield]

/-- Settles O57: by induction over the characters sent before the failing one, each of which leaves the engine ready for
the next. -/
theorem writeTextStopsAtFailure : Obligations.WriteTextStopsAtFailure := by
  intro done
  induction done with
  | nil =>
    intro more c s n rest ha hn hl hlt hb
    rw [List.length_nil, Nat.mul_zero, Nat.zero_add] at hb
    obtain ⟨t, hexec, hres, hbusy, -, htrace, hans⟩ :=
      transferStopsAtFailedWrite s (.data c) c true _ n rest ha hn hl rfl hlt hb
    have herr : t.res.lastErr = .busTransferFailure := by rw [hres]
    refine ⟨t, writeText_cons_of_failure hexec hbusy herr more, herr, ?_, by rw [hres]; rfl, hans⟩
    rw [htrace, List.flatMap_nil, List.append_nil]
  | cons d done ih =>
    intro more c s n rest ha hn hl hlt hb
    have hb' : s.world.busAnswers =
        List.replicate 4 .ok ++ (List.replicate (4 * done.length + n) .ok ++ .err :: rest) := by
      rw [hb, ← List.append_assoc, ← List.replicate_add, List.length_cons]
      congr 2
      omega
    obtain ⟨t, hexec, hsent⟩ := exec_data_sentData ha hn hl d hb'
    have herr : t.res.lastErr = .none := by rw [hsent.res]
    obtain ⟨u, hwrite, hfail, htrace, hcol, hans⟩ :=
      ih more c t n rest hsent.accepts hsent.noReset hsent.lcd hlt hsent.busAnswers
    refine ⟨u, (writeText_cons_of_none hexec hsent.accepts.idle herr _).trans hwrite, hfail, ?_, ?_, hans⟩
    · rw [htrace, hsent.trace, hsent.cfg, hsent.backlight, List.flatMap_cons, List.append_assoc s.log.trace]
    · rw [hcol, hsent.res, List.length_cons, Nat.add_comm (done.length + 1), BitVec.ofNat_add 1, ← BitVec.add_assoc]
      rfl

end Sys2Proof.Machine

/-! ### The bits a timeout leaves -/

namespace Sys2Proof.Machine

/-- The first `m` durations leave a bit for each even measurement from 4 on (42_sensor_decoder.md R184, R185). -/
theorem readDurations_bitCount {c : Config} (h : c.wf = true) (d : Nat → Nat) {w : Results} (hw : w.bitCount = 0)
    {m : Nat} (hm : m ≤ 84) : (readDurations c d w m).bitCount = BitVec.ofNat 6 ((m - 3) / 2) := by
  induction m with
  | zero => exact hw
  | succ m ih =>
    rw [readDurations_succ]
    by_cases hc : carriesBit c m = true
    · have hm' := (carriesBit_iff h m).mp hc
      rw [measured_of_carriesBit hc, show (m + 1 - 3) / 2 = (m - 3) / 2 + 1 by omega, BitVec.ofNat_add,
        ← ih (by omega)]
      rfl
    · have hm' := mt (carriesBit_iff h m).mpr hc
      rw [measured_of_not_carriesBit hc, ih (by omega), show (m + 1 - 3) / 2 = (m - 3) / 2 by omega]

/-- Settles O47: the timeout adds no bit to those of the durations before it. -/
theorem bitsBeforeTimeout : Obligations.BitsBeforeTimeout := by
  intro c w d m hwf hw hm
  have htrain :
      readTrain c 0 ((List.range m).map (fun i => .duration (d i)) ++ [.timeout]) w = readDurations c d w m := by
    have h := readTrain_durations_append c ((List.range m).map d) [.timeout] 0 w
    simpa [readDurations, Function.comp_def, readTrain] using h
  rw [htrain, readDurations_bitCount hwf d hw (by omega), BitVec.toNat_ofNat, Nat.mod_eq_of_lt (by omega)]

end Sys2Proof.Machine

/-! ### What a measurement can do (42_sensor_decoder.md R181) -/

namespace Sys2Proof.Machine

/-- The listed levels `listed`, with free ones once they are used up, give the samples `seen` and leave `left`
(00_scope.md R12, log entry 7). -/
def LevelsSeen (listed seen left : List Level) : Prop :=
  ∃ free, listed ++ free = seen ++ left ∧ (free = [] ∨ left = [])

theorem LevelsSeen.refl (ls : List Level) : LevelsSeen ls [] ls := ⟨[], by simp, .inl rfl⟩

theorem LevelsSeen.trans {l₁ l₂ l₃ a b : List Level} (h : LevelsSeen l₁ a l₂) (h' : LevelsSeen l₂ b l₃) :
    LevelsSeen l₁ (a ++ b) l₃ := by
  obtain ⟨f, hf, hend⟩ := h
  obtain ⟨f', hf', hend'⟩ := h'
  refine ⟨f ++ f', by rw [← List.append_assoc, hf, List.append_assoc, hf', List.append_assoc], ?_⟩
  rcases hend' with rfl | rfl
  · rcases hend with rfl | rfl
    · exact .inl rfl
    · rw [List.append_nil, List.nil_eq, List.append_eq_nil_iff] at hf'
      exact .inr hf'.2
  · exact .inr rfl

theorem levelsSeen_popLevel (s : State) : LevelsSeen s.world.pinLevels [s.nextLevel] s.popLevel.world.pinLevels := by
  cases hl : s.world.pinLevels with
  | nil => exact ⟨[s.nextLevel], by simp [State.popLevel, hl], .inr (by simp [State.popLevel, hl])⟩
  | cons l ls => exact ⟨[], by simp [State.popLevel, State.nextLevel, hl], .inl rfl⟩

/-- Samples that were listed leave the levels listed after them. -/
theorem LevelsSeen.left_eq {ls rest left : List Level} (h : LevelsSeen (ls ++ rest) ls left) : left = rest := by
  obtain ⟨free, heq, hend⟩ := h
  rw [List.append_assoc, List.append_cancel_left_eq] at heq
  rcases hend with rfl | rfl
  · rw [← heq, List.append_nil]
  · exact (List.append_eq_nil_iff.mp heq).1.symm

/-- The state `t` comes after `s` by samples of the pin and waits: the samples saw `ls`, the events are `es`, and the
latch and the bus are as they were. -/
structure State.SeesTo (s t : State) (ls : List Level) (es : List Event) : Prop where
  pinOut : t.pinOut = s.pinOut
  busAnswers : t.world.busAnswers = s.world.busAnswers
  levels : LevelsSeen s.world.pinLevels ls t.world.pinLevels
  trace : t.log.trace = s.log.trace ++ es

theorem State.SeesTo.refl (s : State) : s.SeesTo s [] [] := ⟨rfl, rfl, .refl _, by simp⟩

theorem State.SeesTo.trans {s t u : State} {ls ls' : List Level} {es es' : List Event} (h : s.SeesTo t ls es)
    (h' : t.SeesTo u ls' es') : s.SeesTo u (ls ++ ls') (es ++ es') where
  pinOut := h'.pinOut.trans h.pinOut
  busAnswers := h'.busAnswers.trans h.busAnswers
  levels := h.levels.trans h'.levels
  trace := by rw [h'.trace, h.trace, List.append_assoc]

theorem elapse_seesTo (s : State) (t : Nat) : s.SeesTo (s.elapse t) [] [.delay t] := ⟨rfl, rfl, .refl _, rfl⟩

theorem performPoll_seesTo (s : State) (i n : Nat) :
    s.SeesTo (s.performPoll i n) [s.nextLevel] [.sample s.nextLevel] := by
  have sampled : s.SeesTo ((s.popLevel.emit (.sample s.nextLevel)).withMeasIndex (BitVec.ofNat 7 i)) [s.nextLevel]
      [.sample s.nextLevel] := ⟨by simp, by simp, levelsSeen_popLevel s, by simp⟩
  simp only [State.performPoll]
  split
  · exact { sampled with }
  · split
    · exact { sampled with }
    · exact { sampled with }

/-- A sample at the other level ends the measurement with a duration. -/
theorem performPoll_of_ne {s : State} {i : Nat} (h : s.nextLevel ≠ expectedLevel i) (n : Nat) :
    (s.performPoll i n).seq = s.seq ∧ (s.performPoll i n).work = s.work.measured s.cfg i n := by
  simp [State.performPoll, h]

/-- The last sample the timeout allows ends the measurement, and skips the later ones. -/
theorem performPoll_of_timeout {s : State} {i n : Nat} (h : s.nextLevel = expectedLevel i)
    (hn : s.cfg.tMeasTimeout ≤ n + 1) :
    (s.performPoll i n).seq = s.seq.dropWhile Cmd.isPoll ∧ (s.performPoll i n).work = s.work := by
  simp [State.performPoll, h, hn]

/-- A sample at the expected level before is followed by a wait and the next sample. -/
theorem performPoll_of_lt {s : State} {i n : Nat} (h : s.nextLevel = expectedLevel i)
    (hn : n + 1 < s.cfg.tMeasTimeout) :
    (s.performPoll i n).seq = .delay s.cfg.tPoll :: .poll i (n + 1) :: s.seq ∧ (s.performPoll i n).work = s.work := by
  simp [State.performPoll, h, Nat.not_le.mpr hn]

/-- A duration is below the timeout (R181). -/
def Measured.InTime (limit : Nat) : Measured → Prop
  | .duration d => d < limit
  | .timeout => True

/-- What is left of the commands after a measurement: a timeout skips the measurements among them (R185). -/
def Measured.cmdsAfter (cs : List Cmd) : Measured → List Cmd
  | .duration _ => cs
  | .timeout => cs.dropWhile Cmd.isPoll

/-- The working copy after measurement `i` (R185). -/
def Measured.workAfter (c : Config) (i : Nat) (w : Results) : Measured → Results
  | .duration d => w.measured c i d
  | .timeout => w

theorem Level.eq_other_of_ne {l l' : Level} (h : l ≠ l') : l = l'.other := by
  cases l' with
  | low =>
    cases l with
    | low => exact absurd rfl h
    | high => rfl
  | high =>
    cases l with
    | low => rfl
    | high => exact absurd rfl h

theorem measureEvents_cons (c : Config) (l : Level) {ls : List Level} (h : ls ≠ []) :
    measureEvents c (l :: ls) = [.sample l, .delay c.tPoll] ++ measureEvents c ls := by
  cases ls with
  | nil => exact absurd rfl h
  | cons l' ls => rfl

/-- The state `t` comes after `s` by the rest of measurement `i`, of which `n` samples were taken before: the samples
`ls` complete the outcome `o`, and the commands to come, `cs` at first, and the working copy are what this outcome
leaves. -/
structure State.Measures (s t : State) (i n : Nat) (cs : List Cmd) (o : Measured) (ls : List Level) : Prop where
  inTime : o.InTime s.cfg.tMeasTimeout
  some : ls ≠ []
  samples : List.replicate n (expectedLevel i) ++ ls = samplesOf s.cfg.tMeasTimeout i o
  sees : s.SeesTo t ls (measureEvents s.cfg ls)
  seq : t.seq = o.cmdsAfter cs
  work : t.work = o.workAfter s.cfg i s.work

/-- The last sample of a measurement is one at the other level, or the last the timeout allows. -/
theorem run_lastSample {s : State} {i n : Nat} {cs : List Cmd} (hscript : s.world.script = [])
    (hseq : s.seq = .poll i n :: cs) (hn : n < s.cfg.tMeasTimeout)
    (h : s.nextLevel ≠ expectedLevel i ∨ s.cfg.tMeasTimeout = n + 1) :
    ∃ o, s.Measures (s.run 1) i n cs o [s.nextLevel] := by
  have hrun : s.run 1 = (s.withSeq cs).performPoll i n := run_succ_of_script_nil 0 hscript hseq
  have sees : s.SeesTo (s.run 1) [s.nextLevel] [.sample s.nextLevel] :=
    hrun ▸ { performPoll_seesTo (s.withSeq cs) i n with }
  by_cases hl : s.nextLevel = expectedLevel i
  · have hlimit : s.cfg.tMeasTimeout = n + 1 := h.resolve_left (not_not_intro hl)
    obtain ⟨hseq', hwork⟩ := performPoll_of_timeout (s := s.withSeq cs) hl hlimit.le
    rw [← hrun] at hseq' hwork
    exact ⟨.timeout, trivial, by simp, by simp [samplesOf, hl, hlimit, List.replicate_succ'], sees, hseq', hwork⟩
  · obtain ⟨hseq', hwork⟩ := performPoll_of_ne (s := s.withSeq cs) hl n
    rw [← hrun] at hseq' hwork
    exact ⟨.duration n, hn, by simp, by rw [Level.eq_other_of_ne hl]; rfl, sees, hseq', hwork⟩

/-- Any other sample is followed by a wait and the next one. -/
theorem run_sampleThenWait {s : State} {i n : Nat} {cs : List Cmd} (hscript : s.world.script = [])
    (hseq : s.seq = .poll i n :: cs) (hl : s.nextLevel = expectedLevel i) (hn : n + 1 < s.cfg.tMeasTimeout) :
    s.SeesTo (s.run 2) [expectedLevel i] [.sample (expectedLevel i), .delay s.cfg.tPoll] ∧
      (s.run 2).seq = .poll i (n + 1) :: cs ∧ (s.run 2).work = s.work := by
  have h1 : s.run 1 = (s.withSeq cs).performPoll i n := run_succ_of_script_nil 0 hscript hseq
  obtain ⟨hseq', hwork⟩ := performPoll_of_lt (s := s.withSeq cs) hl hn
  rw [← h1] at hseq' hwork
  have h2 : s.run 2 = ((s.run 1).withSeq (.poll i (n + 1) :: cs)).elapse s.cfg.tPoll := by
    rw [run_add 1 1]
    exact run_succ_of_script_nil 0 (run_script_nil 1 hscript) hseq'
  have sampled : s.SeesTo (s.run 1) [expectedLevel i] [.sample (expectedLevel i)] :=
    hl ▸ h1 ▸ { performPoll_seesTo (s.withSeq cs) i n with }
  have waited : (s.run 1).SeesTo (s.run 2) [] [.delay s.cfg.tPoll] :=
    h2 ▸ { elapse_seesTo (s.run 1) s.cfg.tPoll with }
  exact ⟨sampled.trans waited, by rw [h2]; rfl, by rw [h2]; exact hwork⟩

/-- Without the host, a measurement takes the samples missing from one of its outcomes, with a wait between two. By
induction on `k`, how many more than one the timeout still allows. -/
theorem run_measurement {s : State} {i n k : Nat} {cs : List Cmd} (hscript : s.world.script = [])
    (hseq : s.seq = .poll i n :: cs) (hlimit : s.cfg.tMeasTimeout = n + 1 + k) :
    ∃ o ls, s.Measures (s.run (2 * ls.length - 1)) i n cs o ls := by
  induction k generalizing s n with
  | zero =>
    obtain ⟨o, h⟩ := run_lastSample hscript hseq (by omega) (.inr hlimit)
    exact ⟨o, [s.nextLevel], h⟩
  | succ k ih =>
    by_cases hl : s.nextLevel = expectedLevel i
    · obtain ⟨sampled, hseq', hwork⟩ := run_sampleThenWait hscript hseq hl (by omega)
      have hcfg : (s.run 2).cfg = s.cfg := run_cfg 2 s
      obtain ⟨o, ls, htime, hsome, hsamples, hsees, hcmds, hafter⟩ :=
        ih (run_script_nil 2 hscript) hseq' (by rw [hcfg, hlimit]; omega)
      rw [hcfg] at htime hsamples hsees hafter
      rw [hwork] at hafter
      have hmoves : s.run (2 * (expectedLevel i :: ls).length - 1) = (s.run 2).run (2 * ls.length - 1) := by
        have hpos : 0 < ls.length := List.length_pos_iff.mpr hsome
        rw [← run_add, List.length_cons]
        congr 1
        omega
      refine ⟨o, expectedLevel i :: ls, htime, List.cons_ne_nil _ _, ?_, ?_, hmoves ▸ hcmds, hmoves ▸ hafter⟩
      · rw [← hsamples, List.replicate_succ', List.append_assoc, List.singleton_append]
      · rw [hmoves, measureEvents_cons s.cfg _ hsome]
        exact sampled.trans hsees
    · obtain ⟨o, h⟩ := run_lastSample hscript hseq (by omega) (.inl hl)
      exact ⟨o, [s.nextLevel], h⟩

/-! #### The samples of an outcome are those of no other -/

/-- How many of the levels measurement `i` expects come first. -/
theorem length_takeWhile_samplesOf (limit i d : Nat) (rest : List Level) :
    ((samplesOf limit i (.duration d) ++ rest).takeWhile (· = expectedLevel i)).length = d := by
  have hother : ¬ (expectedLevel i).other = expectedLevel i := by cases expectedLevel i <;> decide
  simp [samplesOf, hother]

theorem le_length_takeWhile_samplesOf_timeout (limit i : Nat) (rest : List Level) :
    limit ≤ ((samplesOf limit i .timeout ++ rest).takeWhile (· = expectedLevel i)).length := by
  simp [samplesOf]

/-- No outcome's samples begin with another's. -/
theorem samplesOf_append_inj {limit i : Nat} {o o' : Measured} {rest rest' : List Level} (ho : o.InTime limit)
    (ho' : o'.InTime limit) (h : samplesOf limit i o ++ rest = samplesOf limit i o' ++ rest') : o = o' := by
  have hlen := congrArg (fun ls => (ls.takeWhile (· = expectedLevel i)).length) h
  cases o with
  | duration d =>
    cases o' with
    | duration d' =>
      simp only [length_takeWhile_samplesOf] at hlen
      rw [hlen]
    | timeout =>
      have hle := le_length_takeWhile_samplesOf_timeout limit i rest'
      simp only [length_takeWhile_samplesOf] at hlen
      exact absurd ho (by simp only [Measured.InTime]; omega)
  | timeout =>
    cases o' with
    | duration d' =>
      have hle := le_length_takeWhile_samplesOf_timeout limit i rest
      simp only [length_takeWhile_samplesOf] at hlen
      exact absurd ho' (by simp only [Measured.InTime]; omega)
    | timeout => rfl

theorem length_samplesOf_duration (limit i d : Nat) : (samplesOf limit i (.duration d)).length = d + 1 := by
  simp [samplesOf]

theorem length_samplesOf_timeout (limit i : Nat) : (samplesOf limit i .timeout).length = limit := by
  simp [samplesOf]

/-- A legal configuration allows a measurement at least one sample (00_scope.md R8). -/
theorem tMeasTimeout_pos {c : Config} (h : c.wf = true) : 0 < c.tMeasTimeout := by
  simp only [Config.wf, Bool.and_eq_true, beq_iff_eq, decide_eq_true_eq] at h
  obtain ⟨-, -, -, -, -, ⟨hlo, -⟩, -⟩ := h
  exact hlo

/-- A measurement whose levels are listed comes to the outcome they are the samples of, whatever turns but a reset the
host takes meanwhile. -/
theorem measures_of_listed {s : State} {i : Nat} {cs : List Cmd} {o : Measured} {rest : List Level}
    (hwf : s.cfg.wf = true) (hn : s.NoReset) (hseq : s.seq = .poll i 0 :: cs) (ho : o.InTime s.cfg.tMeasTimeout)
    (hl : s.world.pinLevels = samplesOf s.cfg.tMeasTimeout i o ++ rest) :
    s.Measures (s.run (2 * (samplesOf s.cfg.tMeasTimeout i o).length - 1)) i 0 cs o
        (samplesOf s.cfg.tMeasTimeout i o) ∧
      (s.run (2 * (samplesOf s.cfg.tMeasTimeout i o).length - 1)).world.pinLevels = rest := by
  have hpos := tMeasTimeout_pos hwf
  obtain ⟨o', ls, h⟩ := run_measurement (s := s.hostless) (k := s.cfg.tMeasTimeout - 1) rfl hseq
    (show s.cfg.tMeasTimeout = _ by omega)
  rw [← run_hostless _ s hn] at h
  have hls : ls = samplesOf s.cfg.tMeasTimeout i o' := h.samples
  have hseen : LevelsSeen (samplesOf s.cfg.tMeasTimeout i o ++ rest) ls _ := hl ▸ h.sees.levels
  have heq : o = o' := by
    obtain ⟨free, hfree, -⟩ := hseen
    rw [hls, List.append_assoc] at hfree
    exact samplesOf_append_inj ho h.inTime hfree
  subst heq hls
  exact ⟨{ h with sees := { h.sees with } }, hseen.left_eq⟩

/-- Settles O44: a measurement whose levels are listed takes them one by one, with a wait between two. -/
theorem measureOutcomes : Obligations.MeasureOutcomes := by
  intro s i cs rest hwf hn hseq
  refine ⟨fun d hd hl => ?_, fun hl => ?_⟩
  · obtain ⟨h, hleft⟩ := measures_of_listed (o := .duration d) hwf hn hseq hd hl
    rw [length_samplesOf_duration, show 2 * (d + 1) - 1 = 2 * d + 1 by omega] at h hleft
    exact ⟨h.seq, h.work, hleft, h.sees.trace⟩
  · obtain ⟨h, hleft⟩ := measures_of_listed (o := .timeout) hwf hn hseq trivial hl
    rw [length_samplesOf_timeout] at h hleft
    exact ⟨h.seq, h.work, hleft, h.sees.trace⟩

end Sys2Proof.Machine

/-! ### The pulse train of a read (42_sensor_decoder.md R183, R185) -/

namespace Sys2Proof.Machine

/-- The events of a pulse train, from measurement `i` on. -/
def trainEvents (c : Config) : Nat → List Measured → List Event
  | _, [] => []
  | i, o :: os => measureEvents c (samplesOf c.tMeasTimeout i o) ++ trainEvents c (i + 1) os

/-- A train has a first outcome, and goes on after it unless that is a timeout. -/
theorem isTrain_succ {limit left : Nat} {os : List Measured} (h : IsTrain limit (left + 1) os) :
    ∃ o os', os = o :: os' ∧ o.InTime limit ∧ (o = .timeout → os' = []) ∧
      (o ≠ .timeout → IsTrain limit left os') := by
  cases os with
  | nil => cases h
  | cons o os =>
    cases o with
    | duration d =>
      obtain ⟨hd, hos⟩ := h
      exact ⟨.duration d, os, rfl, hd, by simp, fun _ => hos⟩
    | timeout => exact ⟨.timeout, os, rfl, trivial, fun _ => h, fun ho => absurd rfl ho⟩

/-- Without the host, the measurements of a read make a pulse train. -/
theorem run_train {tail : List Cmd} (htail : tail.dropWhile Cmd.isPoll = tail) {s : State} {i left : Nat}
    (hwf : s.cfg.wf = true) (hscript : s.world.script = [])
    (hseq : s.seq = (List.range' i left).map (fun j => .poll j 0) ++ tail) :
    ∃ os n, IsTrain s.cfg.tMeasTimeout left os ∧
      s.SeesTo (s.run n) (trainSamples s.cfg.tMeasTimeout i os) (trainEvents s.cfg i os) ∧
      (s.run n).seq = tail ∧ (s.run n).work = readTrain s.cfg i os s.work := by
  induction left generalizing s i with
  | zero => exact ⟨[], 0, rfl, .refl s, hseq, rfl⟩
  | succ left ih =>
    rw [List.range'_succ, List.map_cons, List.cons_append] at hseq
    have hpos := tMeasTimeout_pos hwf
    obtain ⟨o, ls, h⟩ := run_measurement (k := s.cfg.tMeasTimeout - 1) hscript hseq (by omega)
    have hls : ls = samplesOf s.cfg.tMeasTimeout i o := h.samples
    generalize 2 * ls.length - 1 = n at h
    subst hls
    cases o with
    | duration d =>
      obtain ⟨os, m, htrain, hsees, hcmds, hwork⟩ :=
        ih (by rw [run_cfg, hwf]) (run_script_nil n hscript) h.seq
      simp only [run_cfg, ← run_add] at htrain hsees hcmds hwork
      refine ⟨.duration d :: os, n + m, ⟨h.inTime, htrain⟩, h.sees.trans hsees, hcmds, ?_⟩
      rw [hwork, h.work]
      rfl
    | timeout =>
      have hskip : (((List.range' (i + 1) left).map fun j => Cmd.poll j 0) ++ tail).dropWhile Cmd.isPoll = tail := by
        have hpolls : ∀ x ∈ (List.range' (i + 1) left).map fun j => Cmd.poll j 0, x.isPoll = true := by
          intro x hx
          obtain ⟨j, -, rfl⟩ := List.mem_map.mp hx
          rfl
        rw [List.dropWhile_append_of_pos hpolls, htail]
      refine ⟨[.timeout], n, rfl, ?_, h.seq.trans hskip, h.work⟩
      simpa [trainSamples, trainEvents] using h.sees

/-- No train's samples begin with another's. -/
theorem trainSamples_append_inj {limit left i : Nat} {os os' : List Measured} {rest rest' : List Level}
    (h : IsTrain limit left os) (h' : IsTrain limit left os')
    (heq : trainSamples limit i os ++ rest = trainSamples limit i os' ++ rest') : os = os' := by
  induction left generalizing i os os' with
  | zero => exact h.trans h'.symm
  | succ left ih =>
    obtain ⟨o, os, rfl, ho, hlast, hmore⟩ := isTrain_succ h
    obtain ⟨o', os', rfl, ho', hlast', hmore'⟩ := isTrain_succ h'
    simp only [trainSamples, List.append_assoc] at heq
    obtain rfl : o = o' := samplesOf_append_inj ho ho' heq
    by_cases htimeout : o = .timeout
    · rw [hlast htimeout, hlast' htimeout]
    · rw [ih (hmore htimeout) (hmore' htimeout) (List.append_cancel_left heq)]

theorem mem_measureEvents {c : Config} {ls : List Level} {e : Event} (h : e ∈ measureEvents c ls) :
    e.isSample = true ∨ e = .delay c.tPoll := by
  induction ls with
  | nil => cases h
  | cons l ls ih =>
    by_cases hls : ls = []
    · subst hls
      exact .inl (by rw [List.mem_singleton.mp h]; rfl)
    · rw [measureEvents_cons c l hls, List.mem_append, List.mem_pair] at h
      rcases h with (rfl | rfl) | h
      · exact .inl rfl
      · exact .inr rfl
      · exact ih h

/-- The events of a train are samples and the waits between them. -/
theorem mem_trainEvents {c : Config} {i : Nat} {os : List Measured} {e : Event} (h : e ∈ trainEvents c i os) :
    e.isSample = true ∨ e = .delay c.tPoll := by
  induction os generalizing i with
  | nil => cases h
  | cons o os ih =>
    rcases List.mem_append.mp h with h | h
    · exact mem_measureEvents h
    · exact ih h

theorem measured_eq (c : Config) (i d : Nat) (w : Results) :
    ∃ f b, w.measured c i d = { w with frame := f, bitCount := b } := by
  unfold Results.measured
  split
  · exact ⟨_, _, rfl⟩
  · exact ⟨w.frame, w.bitCount, rfl⟩

/-- A train writes to the frame and the bit count alone. -/
theorem readTrain_eq (c : Config) (os : List Measured) (i : Nat) (w : Results) :
    ∃ f b, readTrain c i os w = { w with frame := f, bitCount := b } := by
  induction os generalizing i w with
  | nil => exact ⟨w.frame, w.bitCount, rfl⟩
  | cons o os ih =>
    cases o with
    | duration d =>
      obtain ⟨f, b, hmeasured⟩ := measured_eq c i d w
      obtain ⟨f', b', htrain⟩ := ih (i + 1) (w.measured c i d)
      exact ⟨f', b', by rw [readTrain, htrain, hmeasured]⟩
    | timeout => exact ⟨w.frame, w.bitCount, rfl⟩

/-- A train captures at most a bit for each measurement that carries one. -/
theorem readTrain_bitCount_le {c : Config} {left i : Nat} {os : List Measured} (w : Results)
    (h : IsTrain c.tMeasTimeout left os) :
    (readTrain c i os w).bitCount.toNat ≤ w.bitCount.toNat + (List.range' i left).countP (carriesBit c) := by
  induction left generalizing i os w with
  | zero =>
    subst h
    exact Nat.le_add_right _ _
  | succ left ih =>
    obtain ⟨o, os, rfl, -, -, hmore⟩ := isTrain_succ h
    cases o with
    | duration d =>
      have hfirst := measured_bitCount_le c i d w
      have hrest := ih (i := i + 1) (w.measured c i d) (hmore (by simp))
      rw [readTrain, List.range'_succ, List.countP_cons]
      omega
    | timeout => exact Nat.le_add_right _ _

/-! ### A whole read -/

/-- The working copy of a read after its acknowledge sample, from the results before it (R188, R190). -/
def Results.acknowledged (w : Results) (ack : Level) : Results := { w.cleared with ackSeen := decide (ack = .low) }

/-- The state `t` comes after `s` by a read that saw the level `ack` at its acknowledge sample and then the pulse train
`os`. -/
structure State.ReadBy (s t : State) (ack : Level) (os : List Measured) : Prop where
  train : IsTrain s.cfg.tMeasTimeout 85 os
  dec : t.dec = .idle
  pinDir : t.pinDir = .input
  pinOut : t.pinOut = .low
  res : t.res = (readTrain s.cfg 0 os (s.res.acknowledged ack)).validated s.cfg
  busAnswers : t.world.busAnswers = s.world.busAnswers
  levels : LevelsSeen s.world.pinLevels (ack :: trainSamples s.cfg.tMeasTimeout 0 os) t.world.pinLevels
  trace : t.log.trace = s.log.trace
    ++ [.setDir .output, .write .low, .delay s.cfg.tResetLow, .setDir .input, .delay s.cfg.tAckWait, .sample ack]
    ++ trainEvents s.cfg 0 os ++ [.setDir .input]

/-- The state of a read right before its first measurement. -/
structure State.Acknowledged (s u : State) (ack : Level) : Prop where
  seq : u.seq = measureCmds s.cfg ++ (readTail ++ [Cmd.readDone])
  work : u.work = s.work.acknowledged ack
  pinOut : u.pinOut = .low
  busAnswers : u.world.busAnswers = s.world.busAnswers
  levels : LevelsSeen s.world.pinLevels [ack] u.world.pinLevels
  trace : u.log.trace = s.log.trace
    ++ [.setDir .output, .write .low, .delay s.cfg.tResetLow, .setDir .input, .delay s.cfg.tAckWait, .sample ack]

theorem performAck_seesTo (s : State) : s.SeesTo s.performAck [s.nextLevel] [.sample s.nextLevel] :=
  ⟨by simp [State.performAck], by simp [State.performAck], levelsSeen_popLevel s, by simp [State.performAck]⟩

/-- Without the host, a read begins with its reset pulse and its acknowledge sample. -/
theorem run_acknowledged {s : State} (hscript : s.world.script = []) (hseq : s.seq = readCmds s.cfg) :
    s.Acknowledged (s.run 10) (s.run 8).nextLevel := by
  have h8 : s.run 8 = ((readHead s.cfg).foldl State.perform s).withSeq
      (.ackSample :: .enterDec .readBits :: (measureCmds s.cfg ++ (readTail ++ [Cmd.readDone]))) :=
    run_direct rfl hscript (hseq.trans (readCmds_eq_append s.cfg)) (Nat.le_refl 8)
  have h9 : s.run 9 = ((s.run 8).withSeq
      (.enterDec .readBits :: (measureCmds s.cfg ++ (readTail ++ [Cmd.readDone])))).performAck := by
    rw [run_add 8 1]
    exact run_succ_of_script_nil (c := .ackSample) 0 (run_script_nil 8 hscript) (by rw [h8]; rfl)
  have h10 : s.run 10 = ((s.run 9).withSeq (measureCmds s.cfg ++ (readTail ++ [Cmd.readDone]))).withDec .readBits := by
    rw [run_add 9 1]
    exact run_succ_of_script_nil (c := .enterDec .readBits) 0 (run_script_nil 9 hscript)
      (by rw [h9]; simp [State.performAck])
  have hsees : (s.run 8).SeesTo (s.run 10) [(s.run 8).nextLevel] [.sample (s.run 8).nextLevel] := by
    rw [h10, h9]
    exact { performAck_seesTo ((s.run 8).withSeq _) with }
  obtain ⟨hwork, hout, hbus, hlevels⟩ :
      (s.run 8).work = s.work.cleared ∧ (s.run 8).pinOut = .low ∧ (s.run 8).world.busAnswers = s.world.busAnswers ∧
        (s.run 8).world.pinLevels = s.world.pinLevels := by
    rw [h8]
    exact ⟨rfl, rfl, rfl, rfl⟩
  obtain ⟨-, -, -, -, htrace⟩ := run_readHead hscript (hseq.trans (readCmds_eq_append s.cfg))
  refine ⟨by rw [h10]; rfl, ?_, hsees.pinOut.trans hout, hsees.busAnswers.trans hbus, hlevels ▸ hsees.levels, ?_⟩
  · rw [h10, h9, Results.acknowledged, ← hwork]
    rfl
  · rw [hsees.trace, htrace 8 (by simp), List.append_assoc]
    rfl

/-- Without the host, the end of a read validates the working copy, releases the pin and commits. -/
theorem run_readTail_commits {u : State} (hscript : u.world.script = []) (hseq : u.seq = readTail ++ [Cmd.readDone]) :
    (u.run 4).pinDir = .input ∧ (u.run 4).pinOut = u.pinOut ∧ (u.run 4).res = u.work.validated u.cfg ∧
      (u.run 4).world = u.world ∧ (u.run 4).log.trace = u.log.trace ++ [.setDir .input] := by
  have h3 : u.run 3 = (readTail.foldl State.perform u).withSeq [Cmd.readDone] :=
    run_direct rfl hscript hseq (Nat.le_refl 3)
  have h4 : u.run 4 = (((u.run 3).withSeq []).withDec .idle).commit := by
    rw [run_add 3 1]
    exact run_succ_of_script_nil (c := .readDone) 0 (run_script_nil 3 hscript) (by rw [h3]; rfl)
  simp [h4, h3, readTail, State.perform]

/-- Without the host, a read takes its acknowledge sample, makes a pulse train, validates and releases the pin. -/
theorem run_readBy {s : State} (hwf : s.cfg.wf = true) (hscript : s.world.script = []) (hseq : s.seq = readCmds s.cfg)
    (hwork : s.work = s.res) : ∃ n ack os, (s.run n).seq = [] ∧ s.ReadBy (s.run n) ack os := by
  have hquiet (k : Nat) : (s.run k).world.script = [] := run_script_nil k hscript
  have hack := run_acknowledged hscript hseq
  have hpolls : (s.run 10).seq = (List.range' 0 85).map (fun i => .poll i 0) ++ (readTail ++ [Cmd.readDone]) := by
    rw [hack.seq, measureCmds, (counts_of_wf hwf).1, List.range_eq_range']
  obtain ⟨os, n, htrain, hsees, hcmds, hafter⟩ := run_train rfl (by rw [run_cfg, hwf]) (hquiet 10) hpolls
  obtain ⟨-, hdec, hdone, -⟩ := run_readTail (run_script_nil n (hquiet 10)) hcmds
  obtain ⟨hdir, hout, hres, hworld, htrace⟩ := run_readTail_commits (run_script_nil n (hquiet 10)) hcmds
  simp only [run_cfg, ← run_add] at htrain hsees hafter hdec hdone hdir hout hres hworld htrace
  refine ⟨10 + n + 4, (s.run 8).nextLevel, os, hdone, htrain, hdec, hdir, ?_, ?_, ?_, ?_, ?_⟩
  · rw [hout, hsees.pinOut, hack.pinOut]
  · rw [hres, hafter, hack.work, hwork]
  · rw [hworld, hsees.busAnswers, hack.busAnswers]
  · rw [hworld]
    exact hack.levels.trans hsees.levels
  · rw [htrace, hsees.trace, hack.trace]

/-- A read that no reset disturbs answers the next state that its acknowledge sample and its pulse train give. -/
theorem exec_sensorRead_readBy {s : State} (ha : s.Accepts) (hn : s.NoReset) :
    ∃ t ack os, exec .sensorRead s = .next t ∧ t.busy = false ∧ s.ReadBy t ack os := by
  obtain ⟨n, ack, os, hseq, h⟩ := run_readBy (s := s.hostless.started .sensorRead) ha.legal rfl rfl rfl
  rw [← resume_eq_run_of_seq_nil hseq, ← started_hostless, ← resume_hostless _ (started_noReset s _ hn)] at h
  refine ⟨_, ack, os, exec_of_accepts _ s ha, resume_idle _ (started_closed s _), ?_⟩
  generalize (s.started .sensorRead).resume = t at h
  exact { h with }

/-- What is known of a read whose next state is known. -/
theorem readBy_of_exec {s t : State} (ha : s.Accepts) (hn : s.NoReset) (h : exec .sensorRead s = .next t) :
    ∃ ack os, s.ReadBy t ack os := by
  obtain ⟨t', ack, os, h', -, hread⟩ := exec_sensorRead_readBy ha hn
  rw [h'] at h
  cases h
  exact ⟨ack, os, hread⟩

/-- A read whose levels are listed sees the acknowledge sample and the pulse train they are the samples of. -/
theorem exec_sensorRead_of_listed {s : State} {ack : Level} {os : List Measured} {rest : List Level} (ha : s.Accepts)
    (hn : s.NoReset) (htrain : IsTrain s.cfg.tMeasTimeout 85 os)
    (hl : s.world.pinLevels = ack :: trainSamples s.cfg.tMeasTimeout 0 os ++ rest) :
    ∃ t, exec .sensorRead s = .next t ∧ s.ReadBy t ack os ∧ t.world.pinLevels = rest := by
  obtain ⟨t, ack', os', hexec, -, h⟩ := exec_sensorRead_readBy ha hn
  have hseen : LevelsSeen (ack :: trainSamples s.cfg.tMeasTimeout 0 os ++ rest) _ _ := hl ▸ h.levels
  obtain ⟨rfl, rfl⟩ : ack = ack' ∧ os = os' := by
    obtain ⟨free, hfree, -⟩ := hseen
    simp only [List.cons_append, List.append_assoc, List.cons.injEq] at hfree
    exact ⟨hfree.1, trainSamples_append_inj htrain h.train hfree.2⟩
  exact ⟨t, hexec, h, hseen.left_eq⟩

/-- Settles O45: a pin that shows the samples of a pulse train shows those of no other. -/
theorem readFollowsPulseTrain : Obligations.ReadFollowsPulseTrain := by
  intro s ack os rest ha hn htrain hl
  obtain ⟨t, hexec, h, hleft⟩ := exec_sensorRead_of_listed ha hn htrain hl
  exact ⟨t, hexec, h.res, hleft⟩

/-! #### What Validate makes of a pulse train -/

/-- Validate writes to the reading, `valid` and the code alone (R193). -/
theorem validated_keeps (c : Config) (w : Results) :
    (w.validated c).frame = w.frame ∧ (w.validated c).bitCount = w.bitCount ∧ (w.validated c).ackSeen = w.ackSeen ∧
      (w.validated c).cursorRow = w.cursorRow ∧ (w.validated c).cursorCol = w.cursorCol := by
  unfold Results.validated
  split <;> simp

/-- What a read keeps of the results before it, and what its acknowledge sample alone decides. -/
theorem State.ReadBy.res_keeps {s t : State} {ack : Level} {os : List Measured} (h : s.ReadBy t ack os) :
    t.res.ackSeen = decide (ack = .low) ∧ t.res.cursorRow = s.res.cursorRow ∧ t.res.cursorCol = s.res.cursorCol := by
  obtain ⟨f, b, htrain⟩ := readTrain_eq s.cfg os 0 (s.res.acknowledged ack)
  obtain ⟨-, -, hack, hrow, hcol⟩ :=
    validated_keeps s.cfg (readTrain s.cfg 0 os (s.res.acknowledged ack))
  rw [h.res, hack, hrow, hcol, htrain]
  exact ⟨rfl, rfl, rfl⟩

/-- A read captures at most 40 bits (10_state.md R29). -/
theorem State.ReadBy.bitCount_le {s t : State} {ack : Level} {os : List Measured} (hwf : s.cfg.wf = true)
    (h : s.ReadBy t ack os) : t.res.bitCount.toNat ≤ 40 := by
  have hle := readTrain_bitCount_le (i := 0) (s.res.acknowledged ack) h.train
  have hforty := countP_carriesBit hwf
  rw [(counts_of_wf hwf).1, List.range_eq_range'] at hforty
  rw [h.res, validated_bitCount]
  simpa [Results.acknowledged, Results.cleared, hforty] using hle

/-- The outcome of Validate: a reading from 40 bits and a matching checksum, otherwise the sentinels (R193, R194). -/
theorem validated_outcome {c : Config} (h : c.wf = true) (w : Results) :
    if w.bitCount.toNat = 40 ∧ w.frame.checksum.toNat =
        (w.frame.humInt.toNat + w.frame.humFrac.toNat + w.frame.tempInt.toNat + w.frame.tempFrac.toNat) % 256 then
      (w.validated c).valid = true ∧ (w.validated c).hum = w.frame.humInt ∧ (w.validated c).temp = w.frame.tempInt ∧
        (w.validated c).lastErr = .none
    else
      (w.validated c).valid = false ∧ (w.validated c).hum = c.sentinelHum ∧ (w.validated c).temp = c.sentinelTemp ∧
        (w.validated c).lastErr = if w.bitCount.toNat < 40 then .protocolTimeout else .checksumMismatch := by
  obtain ⟨-, -, hbits, -, -⟩ := counts_of_wf h
  have hsum : w.frame.checksum.toNat =
      (w.frame.humInt.toNat + w.frame.humFrac.toNat + w.frame.tempInt.toNat + w.frame.tempFrac.toNat) % 256 ↔
        w.frame.checksum = w.frame.sum := by
    rw [← BitVec.toNat_inj, Frame.sum, BitVec.toNat_ofNat, Nat.mod_mod]
  simp only [hsum, Results.validated, hbits]
  split
  · exact ⟨rfl, rfl, rfl, rfl⟩
  · exact ⟨rfl, rfl, rfl, rfl⟩

/-- Settles O31: at most 40 bits are captured, and what Validate makes of them is committed. -/
theorem sensorReadOutcome : Obligations.SensorReadOutcome := by
  intro s ha hn
  obtain ⟨t, ack, os, hexec, hidle, h⟩ := exec_sensorRead_readBy ha hn
  refine ⟨t, hexec, hidle, h.dec, h.pinDir, h.pinOut, h.bitCount_le ha.legal, ?_⟩
  have houtcome := validated_outcome ha.legal (readTrain s.cfg 0 os (s.res.acknowledged ack))
  obtain ⟨hframe, hcount, -⟩ := validated_keeps s.cfg (readTrain s.cfg 0 os (s.res.acknowledged ack))
  rw [← hframe, ← hcount, ← h.res] at houtcome
  exact houtcome

/-- Settles O49: the events between the acknowledge sample and the release of the pin are those of a pulse train. -/
theorem readTraceShape : Obligations.ReadTraceShape := by
  intro s t ha hn hexec
  obtain ⟨ack, os, h⟩ := readBy_of_exec ha hn hexec
  exact ⟨ack, trainEvents s.cfg 0 os, h.trace, h.res_keeps.1, fun e he => mem_trainEvents he⟩

/-- A read writes nothing to the bus. -/
theorem State.ReadBy.isWrite_eq_false {s t : State} {ack : Level} {os : List Measured} (h : s.ReadBy t ack os)
    {e : Event} (he : e ∈ s.newEvents t) : e.isWrite = false := by
  rw [State.newEvents, h.trace, List.append_assoc, List.append_assoc, List.drop_left, List.mem_append, List.mem_append,
    List.mem_singleton] at he
  rcases he with hstart | hpoll | rfl
  · simp only [List.mem_cons, List.not_mem_nil, or_false] at hstart
    rcases hstart with rfl | rfl | rfl | rfl | rfl | rfl <;> rfl
  · rcases mem_trainEvents hpoll with hsample | rfl
    · cases e with
      | sample l => rfl
      | _ => cases hsample
    · rfl
  · rfl

/-- Settles O34: a dropped read sets `ovr` alone; one that comes to its end keeps what it does not name. -/
theorem sensorReadFrame : Obligations.SensorReadFrame := by
  intro s t hn hexec
  have hissue := hexec
  rw [exec_eq_issue] at hissue
  rcases issue_cases s (s.started .sensorRead) with ⟨-, h⟩ | ⟨-, hbusy, h⟩ | ⟨hlegal, hidle, h⟩
  · rw [h] at hissue
    cases hissue
  · rw [h] at hissue
    cases hissue
    refine ⟨rfl, rfl, rfl, rfl, rfl, rfl, fun hidle => ?_, by simp [State.newEvents]⟩
    rw [hbusy] at hidle; cases hidle
  · obtain ⟨ack, os, hread⟩ := readBy_of_exec ⟨hlegal, hidle⟩ hn hexec
    obtain ⟨-, hrow, hcol⟩ := hread.res_keeps
    rw [h] at hissue
    cases hissue
    have hn' : (s.started .sensorRead).NoReset := started_noReset s _ hn
    have hlcd := (resume_lcd hn' (initDone_not_mem_started (by decide) s)).trans (started_lcd s .sensorRead)
    have hbl := (resume_backlight hn').trans (started_backlight s .sensorRead)
    refine ⟨(run_cfg _ _).trans (started_cfg s _), hlcd, hbl, hrow, hcol, hread.busAnswers, fun _ hquiet => ?_,
      fun e he => hread.isWrite_eq_false he⟩
    have hquiet' : (s.started .sensorRead).Quiet := by rwa [State.Quiet, started_world]
    obtain ⟨hovr, hreads⟩ := resume_ovr_reads_of_quiet hquiet'
    exact ⟨hovr.trans (started_ovr s _), hreads.trans (by rw [started_log])⟩

/-- A line that stays High shows no acknowledgement and then the train of a single timeout (R189, R199). -/
theorem replicate_high_eq_train (limit : Nat) :
    List.replicate (1 + limit) .high = .high :: trainSamples limit 0 [.timeout] := by
  rw [Nat.add_comm, List.replicate_succ]
  simp [trainSamples, samplesOf, expectedLevel]

/-- Settles O48: the train of a single timeout leaves the cleared frame, which Validate does not accept. -/
theorem silentSensorTimesOut : Obligations.SilentSensorTimesOut := by
  intro s rest ha hn hl
  rw [replicate_high_eq_train] at hl
  obtain ⟨t, hexec, h, hleft⟩ := exec_sensorRead_of_listed (os := [.timeout]) ha hn rfl hl
  have hres : t.res = (s.res.acknowledged .high).validated s.cfg := h.res
  obtain ⟨hvalid, hhum, htemp, herr⟩ := validated_outcome ha.legal (s.res.acknowledged .high)
  rw [← hres] at hvalid hhum htemp herr
  obtain ⟨hframe, hcount, hack, -⟩ := validated_keeps s.cfg (s.res.acknowledged .high)
  rw [← hres] at hframe hcount hack
  refine ⟨t, hexec, hack, hcount, hframe, hvalid, hhum, htemp, herr, hleft, ?_⟩
  have htrace := h.trace
  simpa [trainEvents, samplesOf, expectedLevel] using htrace

/-! ### How often a read samples the pin (R197) -/

/-- How many samples a command can take. -/
def Cmd.samples (c : Config) : Cmd → Nat
  | .ackSample => 1
  | .poll _ n => max 1 (c.tMeasTimeout - n)
  | _ => 0

/-- How many samples the remaining commands can take. -/
def seqSamples (c : Config) (cs : List Cmd) : Nat := (cs.map (Cmd.samples c)).sum

/-- The state `t` comes after `s`: the samples between them and those still to come are no more than were to come. -/
def State.SamplesTo (s t : State) : Prop :=
  t.cfg = s.cfg ∧ ∃ es, t.log.trace = s.log.trace ++ es ∧
    (es.filter Event.isSample).length + seqSamples s.cfg t.seq ≤ seqSamples s.cfg s.seq

theorem State.SamplesTo.refl (s : State) : s.SamplesTo s := ⟨rfl, [], by simp, by simp⟩

theorem State.SamplesTo.trans {s t u : State} (h : s.SamplesTo t) (h' : t.SamplesTo u) : s.SamplesTo u := by
  obtain ⟨hcfg, es, htrace, hle⟩ := h
  obtain ⟨hcfg', es', htrace', hle'⟩ := h'
  rw [hcfg] at hle'
  refine ⟨hcfg'.trans hcfg, es ++ es', by rw [htrace', htrace, List.append_assoc], ?_⟩
  rw [List.filter_append, List.length_append]
  omega

theorem seqSamples_cons (c : Config) (x : Cmd) (cs : List Cmd) :
    seqSamples c (x :: cs) = x.samples c + seqSamples c cs := by
  simp [seqSamples]

theorem seqSamples_dropWhile_le (c : Config) (p : Cmd → Bool) (cs : List Cmd) :
    seqSamples c (cs.dropWhile p) ≤ seqSamples c cs :=
  ((List.dropWhile_sublist p).map _).sum_le_sum (by simp)

/-- A measurement goes on only while the timeout allows another sample. -/
theorem performPoll_samples (s : State) (i n : Nat) :
    1 + seqSamples s.cfg (s.performPoll i n).seq ≤ max 1 (s.cfg.tMeasTimeout - n) + seqSamples s.cfg s.seq := by
  by_cases hl : s.nextLevel = expectedLevel i
  · by_cases hn : n + 1 < s.cfg.tMeasTimeout
    · rw [(performPoll_of_lt hl hn).1, seqSamples_cons, seqSamples_cons]
      simp only [Cmd.samples]
      omega
    · have hdrop := seqSamples_dropWhile_le s.cfg Cmd.isPoll s.seq
      rw [(performPoll_of_timeout hl (Nat.le_of_not_lt hn)).1]
      omega
  · rw [(performPoll_of_ne hl n).1]
    omega

/-- A command takes no more samples than it can. -/
theorem perform_samplesTo (c : Cmd) (s : State) : (s.withSeq (c :: s.seq)).SamplesTo (s.perform c) := by
  have silent {t : State} (hcfg : t.cfg = s.cfg) {es : List Event} (htrace : t.log.trace = s.log.trace ++ es)
      (hes : es.filter Event.isSample = []) (hseq : t.seq = s.seq ∨ t.seq = []) :
      (s.withSeq (c :: s.seq)).SamplesTo t := by
    refine ⟨hcfg, es, htrace, ?_⟩
    rw [hes, State.withSeq_seq, State.withSeq_cfg, seqSamples_cons]
    rcases hseq with hseq | hseq <;> rw [hseq] <;> simp [seqSamples]
  cases c with
  | busWrite b =>
    simp only [State.perform, State.performWrite]
    split
    · exact silent (by simp) (es := [_]) (by simp; rfl) rfl (.inl (by simp))
    · exact silent (by simp) (es := [_]) (by simp; rfl) rfl (.inr (by simp))
  | ackSample =>
    refine ⟨perform_cfg _ s, [.sample s.nextLevel], (performAck_seesTo s).trace, ?_⟩
    rw [List.filter_cons_of_pos rfl]
    simp [State.perform, State.performAck, seqSamples_cons, Cmd.samples]
  | poll i n =>
    refine ⟨perform_cfg _ s, [.sample s.nextLevel], (performPoll_seesTo s i n).trace, ?_⟩
    have hle := performPoll_samples s i n
    rw [State.perform, List.filter_cons_of_pos rfl]
    simpa [seqSamples_cons, Cmd.samples] using hle
  | delay t => exact silent rfl (es := [.delay t]) rfl rfl (.inl rfl)
  | setDir d => exact silent rfl (es := [.setDir d]) rfl rfl (.inl rfl)
  | pinWrite l => exact silent rfl (es := [.write l]) rfl rfl (.inl rfl)
  | endWith e => exact silent rfl (List.append_nil _).symm rfl (.inr rfl)
  | initDone => exact silent rfl (List.append_nil _).symm rfl (.inr rfl)
  | readDone => exact silent rfl (List.append_nil _).symm rfl (.inr rfl)
  | enterDec d => exact silent rfl (List.append_nil _).symm rfl (.inl rfl)
  | clearFrame => exact silent rfl (List.append_nil _).symm rfl (.inl rfl)
  | validate => exact silent rfl (List.append_nil _).symm rfl (.inl rfl)

theorem gap_samplesTo (s : State) : s.SamplesTo s.gap := by
  rcases gap_cases s with hgap | ⟨u, -, hgap, hu⟩
  · exact ⟨gap_cfg s, [], by simp [trace_of_hostless _ _ hgap], by simp [seq_of_hostless _ _ hgap]⟩
  · exact ⟨gap_cfg s, [], by simp [hgap, trace_of_hostless _ _ hu], by simp [hgap, seqSamples]⟩

theorem advance_samplesTo (s : State) : s.SamplesTo s.advance := by
  cases hseq : s.seq with
  | nil =>
    have hstay : s.advance = s := by simp only [State.advance, hseq]
    rw [hstay]
    exact .refl s
  | cons c cs =>
    have h := perform_samplesTo c (s.withSeq cs)
    rw [advance_cons hseq]
    have hs : (s.withSeq cs).withSeq (c :: (s.withSeq cs).seq) = s := by
      rw [State.withSeq_seq, ← hseq]; rfl
    rwa [hs] at h

/-- A running operation samples the pin no more often than its commands can, whatever pin and host do. -/
theorem resume_samplesTo (s : State) : s.SamplesTo s.resume :=
  run_induct s.SamplesTo (fun u _ h => h.trans ((gap_samplesTo u).trans (advance_samplesTo u.gap))) _ s (.refl s)

theorem seqSamples_append (c : Config) (cs cs' : List Cmd) :
    seqSamples c (cs ++ cs') = seqSamples c cs + seqSamples c cs' := by
  simp [seqSamples]

theorem seqSamples_measureCmds {c : Config} (h : c.wf = true) : seqSamples c (measureCmds c) = 85 * c.tMeasTimeout := by
  have hpoll : (Cmd.samples c ∘ fun i => .poll i 0) = fun _ => c.tMeasTimeout :=
    funext fun _ => max_eq_right (tMeasTimeout_pos h)
  rw [seqSamples, measureCmds, List.map_map, (counts_of_wf h).1, hpoll, List.map_const', List.sum_replicate,
    List.length_range, smul_eq_mul]

/-- A read can take its acknowledge sample, and `T_MEAS_TIMEOUT` samples for each of its measurements. -/
theorem seqSamples_readCmds {c : Config} (h : c.wf = true) : seqSamples c (readCmds c) = 1 + 85 * c.tMeasTimeout := by
  rw [readCmds_eq_append, seqSamples_append, seqSamples_cons, seqSamples_cons, seqSamples_append,
    seqSamples_measureCmds h]
  simp [seqSamples, readHead, readTail, Cmd.samples]

/-- Settles O50: the bound of the commands of a read bounds its samples. -/
theorem readSamplesBounded : Obligations.ReadSamplesBounded := by
  intro s t ha h
  rw [exec_of_accepts _ s ha] at h
  cases h
  obtain ⟨-, es, htrace, hle⟩ := resume_samplesTo (s.started .sensorRead)
  rw [started_log] at htrace
  rw [started_cfg, show (s.started .sensorRead).seq = readCmds s.cfg from rfl, seqSamples_readCmds ha.legal] at hle
  rw [State.newEvents, htrace, List.drop_left]
  omega

end Sys2Proof.Machine

/-! ### Operations that are turned away (60_exceptions.md R231, R234) -/

namespace Sys2Proof.Machine

/-- The state `t` comes after an operation in `s` that ended with the code `e` and did nothing else. -/
def State.EndsWithCode (s : State) (e : ErrCode) (t : State) : Prop :=
  t.res = { s.res with lastErr := e } ∧ t.busy = false ∧ t.cfg = s.cfg ∧
    (s.Quiet → t.ovr = s.ovr ∧ t.log.reads = s.log.reads) ∧ t.log.trace = s.log.trace ∧ t.lcd = s.lcd ∧
    t.dec = s.dec ∧ t.backlight = s.backlight ∧ t.measIndex = s.measIndex ∧ t.pinDir = s.pinDir ∧
    t.pinOut = s.pinOut ∧ t.world.busAnswers = s.world.busAnswers ∧ t.world.pinLevels = s.world.pinLevels

/-- Being turned away leaves all of the engine but the code; that the host's part too is as before takes a quiet host. -/
theorem resume_turnedAway_endsWithCode {s : State} (hn : s.NoReset) (e : ErrCode) :
    s.EndsWithCode e (s.turnedAway e).resume := by
  have h : (s.turnedAway e).resume.hostless = State.hostless { s with
      busy := false
      res := { s.res with lastErr := e }
      work := { s.res with lastErr := e }
      seq := [] } := resume_turnedAway s e hn
  exact ⟨res_of_hostless _ _ h, busy_of_hostless _ _ h, (cfg_of_hostless _ _ h :),
    resume_ovr_reads_of_quiet (s := s.turnedAway e), (trace_of_hostless _ _ h :), (lcd_of_hostless _ _ h :),
    (dec_of_hostless _ _ h :), (backlight_of_hostless _ _ h :), (measIndex_of_hostless _ _ h :),
    (pinDir_of_hostless _ _ h :), (pinOut_of_hostless _ _ h :), (busAnswers_of_hostless _ _ h :),
    (pinLevels_of_hostless _ _ h :)⟩

theorem runWord_of_decode_error {w : Word} {e : IllegalWord} (h : decode w = .error e) (s : State) :
    runWord w s = execIllegal s := by
  simp only [runWord, h]

/-- Settles O8: the word is fetched, its turn taken off, and the engine turns it away. -/
theorem illegalWordEndsIllegalOp : Obligations.IllegalWordEndsIllegalOp := by
  intro s addr w ts e ha hn hscript hreg hdec
  have hf : s.fetch = some w := by rw [fetch_of_write hscript, if_pos hreg]
  have ha' : (s.withScript ts).Accepts := ⟨ha.legal, ha.idle⟩
  have hn' : (s.withScript ts).NoReset := fun hm => hn (hscript ▸ List.mem_cons_of_mem _ hm)
  have hstep : step s = .next ((s.withScript ts).turnedAway .illegalOp).resume := by
    rw [step_of_fetch_some ha.legal ha.idle hf, popTurn_of_script hscript, runWord_of_decode_error hdec, execIllegal,
      issue_of_accepts _ _ ha']
  exact ⟨_, hstep, resume_turnedAway_endsWithCode hn' .illegalOp⟩

/-- An operation in the wrong `lcd_state` starts by being turned away. -/
theorem started_of_wrongState {s : State} {i : Instr} (h : wrongState s i = true) :
    s.started i = s.turnedAway .invalidState := by
  have lcd (w : Results) (cs : List Cmd) (hl : decide (s.lcd ≠ .ready) = true) :
      s.lcdStart w cs = s.turnedAway .invalidState := if_neg (of_decide_eq_true hl)
  cases i with
  | init => exact if_neg (of_decide_eq_true h)
  | command v => exact lcd _ _ h
  | data v => exact lcd _ _ h
  | clear => exact lcd _ _ h
  | setCursor r c => exact lcd _ _ h
  | sensorRead => cases h

/-- Settles O23: such an operation is turned away with INVALID_STATE. -/
theorem wrongStateTurnedAway : Obligations.WrongStateTurnedAway := by
  intro s i ha hn hwrong
  rw [exec_of_accepts i s ha, started_of_wrongState hwrong]
  exact ⟨_, rfl, resume_turnedAway_endsWithCode hn .invalidState⟩

end Sys2Proof.Machine
